-- ==== Sys2Proof/Word.lean ====
section
/-! DEFINITION. The value types of `00_scope.md` rule R11: bytes, line levels, the two output lines, and the trace
events of rule R12. Nothing here computes: the arithmetic that an operation uses stands under `Machine/`. -/

namespace Sys2Proof

/-- An unsigned 8-bit value 0..255 (R11). Bit 0 is the least significant bit. -/
abbrev Byte := BitVec 8

/-- A line level or a bit: 0 or 1, with `true` for 1 (R11). -/
abbrev Level := Bool

/-- A text operand, character by character: lengths count characters (R103). -/
abbrev Text := List Char

/-- The two output lines of the block (R56). -/
inductive Line where
  | clk
  | din
  deriving DecidableEq, Repr

/-- One event of the output trace (R12). A `write` is instantaneous; a delay means that at least so many units of
time pass at that place. -/
inductive Event where
  /-- `W(CLK, l)` or `W(DIN, l)`: `writeDigitalPin` on the pin that carries the line. -/
  | write (line : Line) (level : Level)
  /-- `U(n)`: `delayMicroseconds(n)`. -/
  | micros (n : Nat)
  /-- `M(n)`: `delayMilliseconds(n)`. -/
  | millis (n : Nat)
  deriving DecidableEq, Repr

/-- A frame as a receiver sees it: the bytes between a start and an end condition (R58). -/
abbrev Frame := List Byte

end Sys2Proof
end

