-- ==== Sys2Proof/Config.lean ====
section
/-! DEFINITION. The implementation parameters of `00_scope.md` section 4: the timing constants (R7), the font (R9) and
the case folding of the scroll bitmap builder (R10). They are constants of the machine, not state (R34). -/

namespace Sys2Proof

/-- The five minimum delays of R7, in microseconds, as one record, so that every event sequence takes them as an
argument (`92_eei_decisions.md` D4). -/
structure Timing where
  /-- `T_BIT_SETUP`: data-to-clock-rise hold of a bit cell. -/
  bitSetup : Nat
  /-- `T_BIT_HIGH`: clock-high hold of a bit cell. -/
  bitHigh : Nat
  /-- `T_START_LOW`: clock-low hold at the beginning of a start condition. -/
  startLow : Nat
  /-- `T_END_LOW`: clock-low hold at the beginning of an end condition. -/
  endLow : Nat
  /-- `T_END_HIGH`: clock-high hold before the final data rise of an end condition. -/
  endHigh : Nat
  deriving DecidableEq, Repr

/-- The normative values of R7. Log entry 6. -/
def Config.timing : Timing :=
  { bitSetup := 2, bitHigh := 2, startLow := 1, endLow := 2, endHigh := 1 }

/-- A glyph is a finite list of column bytes, bit r for row r (R9). -/
abbrev Glyph := List Byte

/-- A font is a partial map from characters to glyphs (R9). -/
abbrev Font := Char → Option Glyph

/-- The glyph of the space, which R9 says is defined. No source gives its bytes: free. Log entry 7. -/
opaque Config.glyphSpace : Glyph

/-- The glyph of `H`, of which R9 fixes only that it has 5 columns. Log entry 7. -/
opaque Config.glyphH : Vector Byte 5

/-- The glyph of `I`, of which R9 fixes only that it has 5 columns. Log entry 7. -/
opaque Config.glyphI : Vector Byte 5

/-- The font at every other character: free, a glyph or none. Log entry 7. -/
opaque Config.glyphOther : Font

/-- `FONT` (R9), with exactly the constraints that R9 states and nothing else known of it. -/
def Config.font : Font := fun ch =>
  if ch = ' ' then some Config.glyphSpace
  else if ch = 'H' then some Config.glyphH.toList
  else if ch = 'I' then some Config.glyphI.toList
  else Config.glyphOther ch

/-- `FOLD_CASE` (R10): an open parameter; a claim about the machine holds for both values. Its default is
`Config.foldCaseDefault`. Log entry 8. -/
opaque Config.foldCase : Bool

/-- The default value that R10 gives the parameter `FOLD_CASE`. -/
def Config.foldCaseDefault : Bool := true

end Sys2Proof
end

