-- ==== Sys2Proof/Machine/Wire.lean ====
section
/-! DEFINITION. The wire line format (`30_encoding.md` sections 1 and 2, `40_wire_protocol.md`): the event sequences of
a bit cell, a byte, the start and end conditions, a frame and the three-frame write. Each is a plain list of events over
a given timing, so that the meanings, the decoder of a trace and the statements share one text. -/

namespace Sys2Proof.Machine

/-- SEND_BIT: the five events of a bit cell (R57, R85). -/
def bitCell (t : Timing) (b : Level) : List Event :=
  [.write .clk false, .write .din b, .micros t.bitSetup, .write .clk true, .micros t.bitHigh]

/-- SEND_BYTE: the eight bit cells of a byte, bit 7 first (R61, R86). -/
def byteCells (t : Timing) (x : Byte) : List Event :=
  [7, 6, 5, 4, 3, 2, 1, 0].flatMap fun i => bitCell t (x.getLsbD i)

/-- START: DIN falls from 1 to 0 while CLK is 1 (R59, R87). -/
def startCondition (t : Timing) : List Event :=
  [.write .clk false, .micros t.startLow, .write .clk true, .write .din true, .write .din false]

/-- END: DIN rises from 0 to 1 while CLK is 1 (R60, R88). -/
def endCondition (t : Timing) : List Event :=
  [.write .clk false, .micros t.endLow, .write .din false, .write .clk true, .micros t.endHigh, .write .din true]

/-- A frame: one start condition, the bytes in order, one end condition (R58). -/
def frameEvents (t : Timing) (xs : Frame) : List Event :=
  startCondition t ++ xs.flatMap (byteCells t) ++ endCondition t

/-- SEND_COMMAND: a command frame carries one byte (R62, R89). -/
def commandFrame (t : Timing) (x : Byte) : List Event := frameEvents t [x]

/-- The mode command, "Auto-increment addressing mode" (R64). -/
def byteAutoIncrement : Byte := 0x40

/-- The address command, "Grid address select (start at 0)" (R64). -/
def byteAddress0 : Byte := 0xC0

/-- The display-control command, "Display on / default brightness" (R64). -/
def byteDisplayOnDefault : Byte := 0x88

/-- "Display on (alternate 'turn on')" (R64). -/
def byteTurnOn : Byte := 0xA0

/-- "Display off" (R64). -/
def byteDisplayOff : Byte := 0x80

/-- The brightness command: bits 7..3 are `0b10001`, bits 2..0 the level (R65). -/
def byteBrightness (level : BitVec 3) : Byte := byteDisplayOnDefault ||| level.zeroExtend 8

/-- The frames a write puts on the wire, in order (R63). -/
def writeFrames (d : List Byte) : List Frame :=
  [[byteAutoIncrement], byteAddress0 :: d, [byteDisplayOnDefault]]

/-- WRITE_FRAME's events: the three frames of R63 (R90). -/
def writeFrameEvents (t : Timing) (d : List Byte) : List Event :=
  (writeFrames d).flatMap (frameEvents t)

end Sys2Proof.Machine
end

