-- ==== Sys2Proof/Syntax.lean ====
section
/-! DEFINITION. The operands of the request port (`30_encoding.md` section 4) and the one instruction type of the block, with a
constructor for each row of `spec/opcode_table.json`: the sixteen requests and the illegal request, the wire command
bytes and the wire data byte, and the internal primitives. -/

namespace Sys2Proof

/-- A platform pin identifier, written `P<n>` (R8, R82). The spec leaves the type open but for decidable equality
(`93_implementation_defined.md` B8); a number is used. Log entry 9. -/
structure PinId where
  number : Nat
  deriving DecidableEq, Repr

/-- One operand of a request as the port carries it (R76): there is no binary form of an operand (R84), so an
operand is a typed value. -/
inductive Operand where
  | pin (p : PinId)
  | int (v : Int)
  | bool (b : Bool)
  | text (t : Text)
  | ints (vs : List Int)
  | grid (rows : List (List Bool))
  deriving DecidableEq, Repr

/-- The type of an operand (R76). -/
inductive OperandType where
  | pin
  | int
  | bool
  | text
  | ints
  | grid
  deriving DecidableEq, Repr

/-- The instructions: one constructor per row of `spec/opcode_table.json`. -/
inductive Instr where
  /-- INIT, request `0x01` (R97). -/
  | init (clk din : PinId)
  /-- WRITE_FRAME, request `0x10` (R90). -/
  | writeFrame (data : List Int)
  /-- TURN_ON, request `0x11` (R91). -/
  | turnOn
  /-- TURN_OFF, request `0x12` (R92). -/
  | turnOff
  /-- BRIGHTNESS, request `0x13` (R93). -/
  | brightness (level : Int)
  /-- SET_PIXEL, request `0x20` (R99). -/
  | setPixel (row col : Int) (on : Bool)
  /-- RENDER, request `0x21` (R100). -/
  | render
  /-- CLEAR, request `0x22` (R101). -/
  | clear
  /-- LOAD_IMAGE, request `0x23` (R102): `grid[row][col]`. -/
  | loadImage (grid : List (List Bool))
  /-- PARSE_PATTERN, request `0x24` (R103). -/
  | parsePattern (text : Text)
  /-- DRAW_RECT, request `0x25` (R105). -/
  | drawRect (x y w h : Int) (on : Bool)
  /-- DRAW_LINE, request `0x26` (R106). -/
  | drawLine (r0 c0 r1 c1 : Int)
  /-- READ_BUFFER, request `0x27` (R107). -/
  | readBuffer
  /-- TRANSPOSE, request `0x30` (R109). -/
  | transpose (pattern : List Int) (totalColumns : Int)
  /-- BUILD_SCROLL_BITMAP, request `0x40` (R115). -/
  | buildScrollBitmap (text : Text)
  /-- SCROLL_TEXT, request `0x41` (R117). -/
  | scrollText (text : Text) (speed dir : Int)
  /-- ILLEGAL_REQUEST: a request with any code outside the table of R75 (R79, R129). -/
  | illegalRequest (code : Byte) (operands : List Operand)
  /-- CMD_AUTO_INCREMENT, wire command byte `0x40` (R64). -/
  | cmdAutoIncrement
  /-- CMD_ADDRESS_0, wire command byte `0xC0` (R64), the first byte of the address frame. -/
  | cmdAddress0
  /-- CMD_DISPLAY_ON_DEFAULT, wire command byte `0x88` (R64). -/
  | cmdDisplayOnDefault
  /-- CMD_TURN_ON, wire command byte `0xA0` (R64). -/
  | cmdTurnOn
  /-- CMD_DISPLAY_OFF, wire command byte `0x80` (R64). -/
  | cmdDisplayOff
  /-- CMD_BRIGHTNESS, wire command byte `0b10001LLL` (R65). -/
  | cmdBrightness (level : BitVec 3)
  /-- WIRE_DATA_BYTE: one of the 16 data bytes after `0xC0` (R68). -/
  | wireDataByte (d : Byte)
  /-- SEND_BIT, internal (R85). -/
  | sendBit (b : Level)
  /-- SEND_BYTE, internal (R86). -/
  | sendByte (x : Int)
  /-- START, internal (R87). -/
  | startSignal
  /-- END, internal (R88). -/
  | endSignal
  /-- SEND_COMMAND, internal (R89). -/
  | sendCommand (x : Int)
  /-- SCROLL_TICK, internal: one step of the scroll sequencer (R118). -/
  | scrollTick
  deriving DecidableEq, Repr

end Sys2Proof
end

