-- ==== Sys2Proof/Machine/Codes.lean ====
section
/-! DEFINITION. The table of request codes with the operand types of each (`30_encoding.md` rules R75 and R76), and when
operands are of a code's types (R77). -/

namespace Sys2Proof

/-- The type an operand has. -/
def operandType : Operand → OperandType
  | .pin _ => .pin
  | .int _ => .int
  | .bool _ => .bool
  | .text _ => .text
  | .ints _ => .ints
  | .grid _ => .grid

/-- The table of request codes with the operand types of each (R75, R76). -/
def requestTable : List (Byte × List OperandType) :=
  [ (0x01, [.pin, .pin]),
    (0x10, [.ints]),
    (0x11, []),
    (0x12, []),
    (0x13, [.int]),
    (0x20, [.int, .int, .bool]),
    (0x21, []),
    (0x22, []),
    (0x23, [.grid]),
    (0x24, [.text]),
    (0x25, [.int, .int, .int, .int, .bool]),
    (0x26, [.int, .int, .int, .int]),
    (0x27, []),
    (0x30, [.ints, .int]),
    (0x40, [.text]),
    (0x41, [.text, .int, .int]) ]

/-- The operand types of a request code, if the code is assigned. -/
def signature (code : Byte) : Option (List OperandType) :=
  (requestTable.find? fun row => row.1 = code).map Prod.snd

/-- The request code is in the table of R75. -/
def assigned (code : Byte) : Bool := (signature code).isSome

/-- The operands are of the types of the code's row (R76, R77). An unassigned code has no operand types, so any operands
fit it: log entry 23. -/
def operandsFit (code : Byte) (operands : List Operand) : Bool :=
  match signature code with
  | some types => operands.map operandType == types
  | none => true

/-- Any operands fit an unassigned code (R79). -/
theorem operandsFit_of_unassigned {code : Byte} (operands : List Operand) (h : assigned code = false) :
    operandsFit code operands = true := by
  have hs : signature code = none := by simpa [assigned] using h
  simp [operandsFit, hs]

end Sys2Proof
end

