-- ==== Sys2Proof/WellFormed.lean ====
section
/-! DEFINITION. What the host can put on the request port, and which instructions are well formed. A request carries the
proof that its operands are of the types of its code, so no mistyped request is a value (R77). An instruction is ill formed
only as an illegal request with an assigned code (R79). Every other operand value is allowed by the type itself: an operand
that is out of range is a result of the request, not an ill-formed request (R123). -/

namespace Sys2Proof

/-- What the host puts on the request port: an 8-bit request code and the operands (R74, R84), of the types that R76 gives
an assigned code. A request with an operand of another type cannot be written: this type has no such value (R77). -/
structure Request where
  code : Byte
  operands : List Operand
  typed : operandsFit code operands = true
  deriving DecidableEq, Repr

/-- A request with an unassigned code, whatever its operands (R79). -/
def Request.unassigned (code : Byte) (operands : List Operand) (h : assigned code = false) : Request :=
  ⟨code, operands, operandsFit_of_unassigned operands h⟩

/-- The check of an instruction: an illegal request's code is an unassigned one (R79). -/
def Instr.wellFormed : Instr → Bool
  | .init _ _ => true
  | .writeFrame _ => true
  | .turnOn => true
  | .turnOff => true
  | .brightness _ => true
  | .setPixel _ _ _ => true
  | .render => true
  | .clear => true
  | .loadImage _ => true
  | .parsePattern _ => true
  | .drawRect _ _ _ _ _ => true
  | .drawLine _ _ _ _ => true
  | .readBuffer => true
  | .transpose _ _ => true
  | .buildScrollBitmap _ => true
  | .scrollText _ _ _ => true
  | .illegalRequest code _ => !assigned code
  | .cmdAutoIncrement => true
  | .cmdAddress0 => true
  | .cmdDisplayOnDefault => true
  | .cmdTurnOn => true
  | .cmdDisplayOff => true
  | .cmdBrightness _ => true
  | .wireDataByte _ => true
  | .sendBit _ => true
  | .sendByte _ => true
  | .startSignal => true
  | .endSignal => true
  | .sendCommand _ => true
  | .scrollTick => true

end Sys2Proof
end

