-- ==== Sys2Proof/Decode.lean ====
section
/-! DEFINITION. The encodings of `30_encoding.md` and `spec/opcode_table.json`, each with its decoder and its encoder.
There are three, as the table's three formats: the REQUEST PORT (a code and typed operands; R74 to R84), the WIRE COMMAND
BYTES (the bytes of a frame; R64 to R69) and the EVENT SEQUENCES of the internal primitives, which have no code (R78). The
request port is the only one an instruction reaches the block by, so `step` uses that one, and so does
`decodeTableWord`. -/

namespace Sys2Proof

open Sys2Proof.Machine

/-- Why a code with operands is not read as a request. -/
inductive DecodeError where
  /-- The code is assigned and the operands are not of the types of R76: by R77 no such request exists. -/
  | mistyped (code : Byte)
  deriving DecidableEq, Repr

/-- The request with a code and operands, total on every code and every operand list; operands that are not of the code's
types are rejected by name, since there is no such request (R76, R77). -/
def readRequest (code : Byte) (operands : List Operand) : Except DecodeError Request :=
  if h : operandsFit code operands = true then .ok ⟨code, operands, h⟩ else .error (.mistyped code)

/-- The decoder of the request port: every request is an instruction (R75, R77). What is none of the sixteen rows has an
unassigned code, because its operands are typed: it is an illegal request, whatever its operands are (R79). -/
def decodeRequest (r : Request) : Instr :=
  match r.code.toNat, r.operands with
  | 0x01, [.pin clk, .pin din] => .init clk din
  | 0x10, [.ints data] => .writeFrame data
  | 0x11, [] => .turnOn
  | 0x12, [] => .turnOff
  | 0x13, [.int level] => .brightness level
  | 0x20, [.int row, .int col, .bool on] => .setPixel row col on
  | 0x21, [] => .render
  | 0x22, [] => .clear
  | 0x23, [.grid grid] => .loadImage grid
  | 0x24, [.text text] => .parsePattern text
  | 0x25, [.int x, .int y, .int w, .int h, .bool on] => .drawRect x y w h on
  | 0x26, [.int r0, .int c0, .int r1, .int c1] => .drawLine r0 c0 r1 c1
  | 0x27, [] => .readBuffer
  | 0x30, [.ints pattern, .int n] => .transpose pattern n
  | 0x40, [.text text] => .buildScrollBitmap text
  | 0x41, [.text text, .int speed, .int dir] => .scrollText text speed dir
  | _, operands => .illegalRequest r.code operands

/-- The encoder of the request port: the code and the operands of a request in the order of R76. An instruction that the
host cannot issue has no request (R78), nor has the ill-formed illegal request with an assigned code (R79). -/
def encodeRequest : Instr → Option Request
  | .init clk din => some ⟨0x01, [.pin clk, .pin din], rfl⟩
  | .writeFrame data => some ⟨0x10, [.ints data], rfl⟩
  | .turnOn => some ⟨0x11, [], rfl⟩
  | .turnOff => some ⟨0x12, [], rfl⟩
  | .brightness level => some ⟨0x13, [.int level], rfl⟩
  | .setPixel row col on => some ⟨0x20, [.int row, .int col, .bool on], rfl⟩
  | .render => some ⟨0x21, [], rfl⟩
  | .clear => some ⟨0x22, [], rfl⟩
  | .loadImage grid => some ⟨0x23, [.grid grid], rfl⟩
  | .parsePattern text => some ⟨0x24, [.text text], rfl⟩
  | .drawRect x y w h on => some ⟨0x25, [.int x, .int y, .int w, .int h, .bool on], rfl⟩
  | .drawLine r0 c0 r1 c1 => some ⟨0x26, [.int r0, .int c0, .int r1, .int c1], rfl⟩
  | .readBuffer => some ⟨0x27, [], rfl⟩
  | .transpose pattern n => some ⟨0x30, [.ints pattern, .int n], rfl⟩
  | .buildScrollBitmap text => some ⟨0x40, [.text text], rfl⟩
  | .scrollText text speed dir => some ⟨0x41, [.text text, .int speed, .int dir], rfl⟩
  | .illegalRequest code operands =>
    if h : assigned code = false then some (Request.unassigned code operands h) else none
  | .cmdAutoIncrement => none
  | .cmdAddress0 => none
  | .cmdDisplayOnDefault => none
  | .cmdTurnOn => none
  | .cmdDisplayOff => none
  | .cmdBrightness _ => none
  | .wireDataByte _ => none
  | .sendBit _ => none
  | .sendByte _ => none
  | .startSignal => none
  | .endSignal => none
  | .sendCommand _ => none
  | .scrollTick => none

/-- The wire byte of a wire command or data byte (R64, R65, R68). -/
def encodeWireByte : Instr → Option Byte
  | .cmdAutoIncrement => some byteAutoIncrement
  | .cmdAddress0 => some byteAddress0
  | .cmdDisplayOnDefault => some byteDisplayOnDefault
  | .cmdTurnOn => some byteTurnOn
  | .cmdDisplayOff => some byteDisplayOff
  | .cmdBrightness level => some (byteBrightness level)
  | .wireDataByte d => some d
  | .init _ _ => none
  | .writeFrame _ => none
  | .turnOn => none
  | .turnOff => none
  | .brightness _ => none
  | .setPixel _ _ _ => none
  | .render => none
  | .clear => none
  | .loadImage _ => none
  | .parsePattern _ => none
  | .drawRect _ _ _ _ _ => none
  | .drawLine _ _ _ _ => none
  | .readBuffer => none
  | .transpose _ _ => none
  | .buildScrollBitmap _ => none
  | .scrollText _ _ _ => none
  | .illegalRequest _ _ => none
  | .sendBit _ => none
  | .sendByte _ => none
  | .startSignal => none
  | .endSignal => none
  | .sendCommand _ => none
  | .scrollTick => none

/-- The wire command that the first byte of a frame is; a byte outside R68 is none (R69). The byte `0x88` has two names
(R66) and is read as the one that a render sends. Log entry 12. -/
def decodeFirstByte (b : Byte) : Option Instr :=
  if b = byteAutoIncrement then some .cmdAutoIncrement
  else if b = byteAddress0 then some .cmdAddress0
  else if b = byteDisplayOnDefault then some .cmdDisplayOnDefault
  else if b = byteTurnOn then some .cmdTurnOn
  else if b = byteDisplayOff then some .cmdDisplayOff
  else if b.extractLsb' 3 5 = 0b10001#5 then some (.cmdBrightness (b.extractLsb' 0 3))
  else none

/-- The wire commands of a whole frame (R62): a command frame is one command byte, an address frame is `0xC0` with
exactly 16 data bytes. Nothing else is in the block's output language (R69). -/
def decodeFrame : Frame → Option (List Instr)
  | [] => none
  | b :: data =>
    match decodeFirstByte b with
    | none => none
    | some .cmdAddress0 => if data.length = 16 then some (.cmdAddress0 :: data.map .wireDataByte) else none
    | some i => if data.isEmpty then some [i] else none

/-- The event sequence of an internal primitive, its encoding in the table (R85 to R89). SCROLL_TICK's depends on the
state and is none here (R118). -/
def encodeEvents (t : Timing) : Instr → Option (List Event)
  | .sendBit b => some (bitCell t b)
  | .sendByte x => some (byteCells t (BitVec.ofInt 8 x))
  | .startSignal => some (startCondition t)
  | .endSignal => some (endCondition t)
  | .sendCommand x => some (commandFrame t (BitVec.ofInt 8 x))
  | .scrollTick => none
  | .cmdAutoIncrement => none
  | .cmdAddress0 => none
  | .cmdDisplayOnDefault => none
  | .cmdTurnOn => none
  | .cmdDisplayOff => none
  | .cmdBrightness _ => none
  | .wireDataByte _ => none
  | .init _ _ => none
  | .writeFrame _ => none
  | .turnOn => none
  | .turnOff => none
  | .brightness _ => none
  | .setPixel _ _ _ => none
  | .render => none
  | .clear => none
  | .loadImage _ => none
  | .parsePattern _ => none
  | .drawRect _ _ _ _ _ => none
  | .drawLine _ _ _ _ => none
  | .readBuffer => none
  | .transpose _ _ => none
  | .buildScrollBitmap _ => none
  | .scrollText _ _ _ => none
  | .illegalRequest _ _ => none

/-- The levels written on DIN, in order. -/
def dinLevels : List Event → List Level
  | [] => []
  | .write .din l :: es => l :: dinLevels es
  | _ :: es => dinLevels es

/-- The byte of a list of bits, most significant bit first (R61, R70). -/
def byteOfBits (bits : List Level) : Byte :=
  bits.foldl (fun v b => v <<< 1 ||| (if b then 1 else 0)) 0

/-- The internal primitive whose event sequence this is. A byte operand is read as its value 0..255, since only the low 8
bits reach the wire (R86). -/
def decodeEvents (t : Timing) (es : List Event) : Option Instr :=
  if es = startCondition t then some .startSignal
  else if es = endCondition t then some .endSignal
  else if es = bitCell t false then some (.sendBit false)
  else if es = bitCell t true then some (.sendBit true)
  else
    let cells := byteOfBits ((dinLevels es).take 8)
    let inFrame := byteOfBits (((dinLevels es).drop 2).take 8)
    if es = byteCells t cells then some (.sendByte cells.toNat)
    else if es = commandFrame t inFrame then some (.sendCommand inFrame.toNat)
    else none

/-- The operands of a request whose operand words are all zero: the number 0, the level 0, pin 0, an empty list, an
empty text. -/
def zeroOperand : OperandType → Operand
  | .pin => .pin ⟨0⟩
  | .int => .int 0
  | .bool => .bool false
  | .text => .text []
  | .ints => .ints []
  | .grid => .grid []

/-- The request that a table word stands for: the 8-bit code with operands of zeros. A word of more than the code's 8
bits is none, since an operand has no binary form (R84). -/
def tableRequest (w : Nat) : Option Request :=
  if w < 256 then
    let code := BitVec.ofNat 8 w
    match readRequest code (((signature code).getD []).map zeroOperand) with
    | .ok r => some r
    | .error _ => none
  else none

/-- The instruction the block reads from a table word at its request port, the one place it takes instructions from
(R74). A wire command byte is nothing that the host can issue (R78): on the port its value is a request code like any
other. Log entry 11. -/
def decodeTableWord (_nbits w : Nat) : Option Instr := (tableRequest w).map decodeRequest

end Sys2Proof
end

