-- ==== Sys2Proof/Machine/State.lean ====
section
/-! DEFINITION. The state of the block: the record of `10_state.md` rule R21, and beside it the model's own fields for what
the spec places outside that record but a step reads or writes (the host's turns, the result port, the session marks). -/

namespace Sys2Proof.Machine

/-- The mode register: the scroll state machine `Idle → Scrolling → Idle` (R27). The offset of `Scrolling(offset)` is
`scrOff`. -/
inductive Mode where
  | idle
  | scrolling
  deriving DecidableEq, Repr

/-- `scr_step`: +1 for a left scroll, -1 for a right scroll (R28). -/
inductive ScrollStep where
  | forward
  | backward
  deriving DecidableEq, Repr

/-- The kinds of the fault register (R126). -/
inductive FaultKind where
  /-- A request other than INIT before the first successful INIT (R128). -/
  | notInitialized
  /-- A host request while a scroll runs (R127). -/
  | busyViolation
  /-- A request whose code is not assigned (R129). -/
  | illegalRequest
  deriving DecidableEq, Repr

/-- What the fault register records: the kind and the rejected request, code and operands (R126). -/
structure FaultRecord where
  kind : FaultKind
  request : Request
  deriving DecidableEq, Repr

/-- The result codes (R123). -/
inductive Result where
  | ok
  | invalidDimensions
  | outOfRange
  | unsupported
  deriving DecidableEq, Repr

/-- One answer on the result port: a result code and, for the requests that return data, a value (R30, R123). -/
structure Response where
  result : Result
  value : Option (List Byte)
  deriving DecidableEq, Repr

/-- One turn of the host (R18): what the host does at its request port before the block's next step. Log entry 2. -/
inductive HostTurn where
  /-- The host issues the request now, whatever the block is doing. -/
  | issue (r : Request)
  /-- The host issues the request once the block has answered the one before (the duty of R137). -/
  | issueWhenReady (r : Request)
  /-- The host issues nothing in this turn. -/
  | pass
  deriving DecidableEq, Repr

/-- The beginning of a matrix session (R98): the pins of its INIT and the number of events in the trace before it. -/
structure SessionMark where
  clkPin : PinId
  dinPin : PinId
  start : Nat
  deriving DecidableEq, Repr

/-- The Matrix Buffer: exactly 16 bytes, index = column, bit r = row r (R22, R23). -/
abbrev PixelRegister := Vector Byte 16

/-- The state of the block. The fields up to `trace` are the record of R21; the last three are the model's own. -/
structure State where
  /-- The pixel register (R22). It holds no value before the first INIT: see `State.pixelRegister`. -/
  buf : PixelRegister
  /-- Set by the first successful INIT (R24). -/
  initialized : Bool
  /-- The clock pin (R24). Unassigned before the first INIT: see `State.pins`. -/
  clkPin : PinId
  /-- The data pin (R24). -/
  dinPin : PinId
  /-- The last level driven on CLK in this session, or ⊥ (R25). -/
  clk : Option Level
  /-- The last level driven on DIN in this session, or ⊥ (R25). -/
  din : Option Level
  /-- The mode register (R27). -/
  mode : Mode
  /-- The bitmap of the running scroll (R28). Without meaning while `mode` is `idle`: see `State.scroll`. -/
  scrBitmap : List Byte
  /-- The current window offset of the running scroll (R28). -/
  scrOff : Int
  /-- The final offset of the running scroll (R28). -/
  scrLast : Int
  /-- The direction of the running scroll (R28). -/
  scrStep : ScrollStep
  /-- The delay in milliseconds after each frame of the running scroll (R28). -/
  scrSpeed : Nat
  /-- The fault register (R29). -/
  fault : Option FaultRecord
  /-- The output trace, oldest event first (R12, R31). -/
  trace : List Event
  /-- MODEL'S OWN: the answers given on the result port, oldest first (R30). Log entry 3. -/
  results : List Response
  /-- MODEL'S OWN: the host's turns still to come (R18, R84). Log entry 2. -/
  host : List HostTurn
  /-- MODEL'S OWN: where each session begins in the trace, oldest first (R98). Log entry 4. -/
  sessions : List SessionMark
  deriving DecidableEq, Repr

/-- Why the machine stops. -/
inductive Fault where
  /-- Raised by every instruction and every step while the fault register is set: the block is quiescent and has no
  step (R125, R130). Safe: the spec's own stuck state. -/
  | quiescent
  /-- Raised by SCROLL_TICK while no scroll runs: the tick is enabled only when `mode = Scrolling` (R118). Safe: the
  spec gives it no effect there, and no step of the block asks for it. -/
  | tickNotEnabled
  deriving DecidableEq, Repr

/-- Why a step is refused. -/
inductive Refusal where
  /-- Raised by `exec` for an instruction without a meaning. Safe. No arm answers with it. -/
  | notModelled (mnemonic : String)
  /-- Raised by `exec` for an illegal-request term whose code is an assigned one: the term is not well formed, it is no
  request (R79), and the decoder never answers with it, so no step is refused. Safe. -/
  | assignedCode (code : Byte)
  deriving DecidableEq, Repr

/-- The outcome of a step of this machine. -/
abbrev Out := Host.Outcome State Fault Refusal

/-- Power-on reset (R36, R141). ⊥ of `clk` and `din` is `none`; ⊥ of the pixel register and the pins is
`initialized = false`, and of the scroll registers `mode = idle`, over the placeholder values that log entry 1 names. -/
def State.reset : State where
  buf := Vector.replicate 16 0
  initialized := false
  clkPin := ⟨0⟩
  dinPin := ⟨0⟩
  clk := none
  din := none
  mode := .idle
  scrBitmap := []
  scrOff := 0
  scrLast := 0
  scrStep := .forward
  scrSpeed := 0
  fault := none
  trace := []
  results := []
  host := []
  sessions := []

/-- The pixel register as the spec has it: ⊥ before the first INIT (R23, R36). -/
def State.pixelRegister (s : State) : Option PixelRegister :=
  if s.initialized then some s.buf else none

/-- The pin configuration as the spec has it: ⊥ before the first INIT (R24, R36). -/
def State.pins (s : State) : Option (PinId × PinId) :=
  if s.initialized then some (s.clkPin, s.dinPin) else none

/-- The registers of a running scroll (R28). -/
structure ScrollRegisters where
  bitmap : List Byte
  off : Int
  last : Int
  step : ScrollStep
  speed : Nat
  deriving DecidableEq, Repr

/-- The scroll registers as the spec has them: they hold meaningful values only while a scroll runs (R28, R36). -/
def State.scroll (s : State) : Option ScrollRegisters :=
  match s.mode with
  | .idle => none
  | .scrolling => some ⟨s.scrBitmap, s.scrOff, s.scrLast, s.scrStep, s.scrSpeed⟩

end Sys2Proof.Machine
end

