-- ==== Sys2Proof/Machine/Operands.lean ====
section
/-! DEFINITION. How an operand is read: byte operands (R80), coordinates (R40), the grid and the pattern text (R102,
R103), the characters of a scroll text (R115) and the direction of a scroll (R81). -/

namespace Sys2Proof.Machine

/-- `low8(v)`: the Euclidean remainder of v by 256, as a byte (R11, R80). -/
def low8 (v : Int) : Byte := BitVec.ofInt 8 v

/-- A coordinate addresses a pixel: row in [0,8) and column in [0,16) (R40). -/
def inGrid (row col : Int) : Bool := decide (0 ≤ row ∧ row < 8 ∧ 0 ≤ col ∧ col < 16)

/-- A byte from its bits: OR over r in 0..7 of the bit of row r at bit position r (R102). -/
def byteOfRows (f : Nat → Bool) : Byte :=
  (List.range 8).foldl (fun v r => v ||| (if f r then 1#8 <<< r else 0#8)) 0#8

/-- The 16 column bytes of a picture given row and column (R102). -/
def columnsOf (lit : Nat → Nat → Bool) : PixelRegister :=
  Vector.ofFn fun c : Fin 16 => byteOfRows fun r => lit r c

/-- `grid[row][col]` of a LOAD_IMAGE grid (R76). -/
def gridAt (grid : List (List Bool)) (row col : Nat) : Bool := (grid.getD row []).getD col false

/-- The lines of a text, split at line feeds: k line feeds give k + 1 lines (R103). -/
def splitLines : Text → List Text
  | [] => [[]]
  | ch :: rest =>
    if ch = '\n' then [] :: splitLines rest
    else
      match splitLines rest with
      | [] => [[ch]]
      | line :: lines => (ch :: line) :: lines

/-- The character at (row, col) of a pattern's lines is `*`; every other character is unlit (R103). -/
def patternAt (lines : List Text) (row col : Nat) : Bool := (lines.getD row []).getD col '.' = '*'

/-- The character looked up for a character of a scroll text: with case folding, ASCII `a`–`z` as `A`–`Z` (R115). -/
def foldChar (fold : Bool) (ch : Char) : Char :=
  if fold ∧ 'a' ≤ ch ∧ ch ≤ 'z' then Char.ofNat (ch.toNat - 32) else ch

/-- `glyphOf(ch)`: the glyph of the character, and the space glyph where it has none (R115). -/
def glyphOf (font : Font) (fold : Bool) (ch : Char) : Glyph :=
  match font (foldChar fold ch) with
  | some glyph => glyph
  | none => (font ' ').getD []

/-- SCROLL_TEXT's `dir`: 0 is a left scroll, 1 a right scroll, any other value is out of range (R81). -/
def scrollStepOf (dir : Int) : Option ScrollStep :=
  if dir = 0 then some .forward else if dir = 1 then some .backward else none

/-- `scr_step` as the number added to the offset (R28). -/
def stepInt : ScrollStep → Int
  | .forward => 1
  | .backward => -1

end Sys2Proof.Machine
end

