-- ==== Sys2Proof/Machine/Flags.lean ====
section
/-! DEFINITION. The block has no status flags (R33): the only status a request reports is its result code. This file
holds what computes that code, one check per request that has one, in the order of R131. A request not listed here has no
check of its own and always answers `Ok` (R123). -/

namespace Sys2Proof.Machine

/-- INIT: `OutOfRange` when the two pins are one (R97). -/
def checkInit (clk din : PinId) : Result := if clk = din then .outOfRange else .ok

/-- WRITE_FRAME: `InvalidDimensions` unless there are 16 elements (R90). -/
def checkWriteFrame (data : List Int) : Result := if data.length ≠ 16 then .invalidDimensions else .ok

/-- BRIGHTNESS: `OutOfRange` for a level outside 0..7 (R93). -/
def checkBrightness (level : Int) : Result := if level < 0 ∨ level > 7 then .outOfRange else .ok

/-- SET_PIXEL: `OutOfRange` for a coordinate outside the grid (R99). -/
def checkSetPixel (row col : Int) : Result := if inGrid row col then .ok else .outOfRange

/-- LOAD_IMAGE: `InvalidDimensions` unless there are 8 rows, and then unless each has 16 cells (R102, R131). -/
def checkLoadImage (grid : List (List Bool)) : Result :=
  if grid.length ≠ 8 then .invalidDimensions
  else if grid.any (fun row => row.length ≠ 16) then .invalidDimensions
  else .ok

/-- PARSE_PATTERN: `InvalidDimensions` unless there are 8 lines, and then unless each has 16 characters (R103, R131). -/
def checkPattern (lines : List Text) : Result :=
  if lines.length ≠ 8 then .invalidDimensions
  else if lines.any (fun line => line.length ≠ 16) then .invalidDimensions
  else .ok

/-- DRAW_LINE: `Unsupported` for a diagonal (R106). -/
def checkDrawLine (r0 c0 r1 c1 : Int) : Result := if r0 ≠ r1 ∧ c0 ≠ c1 then .unsupported else .ok

/-- The number of bytes TRANSPOSE needs for n columns (R110). -/
def transposeNeed (n : Nat) : Nat := if n = 0 then 0 else 7 * n + (n - 1) / 8 + 1

/-- TRANSPOSE: `OutOfRange` for a negative column count, and then `InvalidDimensions` for a short pattern (R109, R131). -/
def checkTranspose (pattern : List Int) (n : Int) : Result :=
  if n < 0 then .outOfRange
  else if pattern.length < transposeNeed n.toNat then .invalidDimensions
  else .ok

/-- SCROLL_TEXT: `OutOfRange` for a negative speed, and then for a direction other than 0 and 1 (R117, R131). -/
def checkScrollText (speed dir : Int) : Result :=
  if speed < 0 then .outOfRange
  else if dir ≠ 0 ∧ dir ≠ 1 then .outOfRange
  else .ok

end Sys2Proof.Machine
end

