-- ==== Sys2Proof/Machine/Ops.lean ====
section
/-! DEFINITION. The shared operations over the state: driving the lines, answering on the result port, recording a fault,
admission, and the reads and writes of the pixel register. Recording a fault is the one thing the block has in the place of
taking an exception: nothing is saved, no mode changes, no vector is taken, and nothing returns from it (R133). -/

namespace Sys2Proof.Machine

/-- The level of a line after some events, given its level before: each write to the line sets it (R25). -/
def lastLevel (line : Line) : List Event → Option Level → Option Level
  | [], l => l
  | .write ln v :: es, l => lastLevel line es (if ln = line then some v else l)
  | .micros _ :: es, l => lastLevel line es l
  | .millis _ :: es, l => lastLevel line es l

/-- `emit`: the events are appended to the trace in order, and each write sets its line's level (R12, R25). -/
def State.emit (s : State) (es : List Event) : State :=
  { s with
    trace := s.trace ++ es
    clk := lastLevel .clk es s.clk
    din := lastLevel .din es s.din }

/-- An answer on the result port (R30). -/
def State.respond (s : State) (r : Response) : State := { s with results := s.results ++ [r] }

/-- `raise F`: the fault register records the kind and the rejected request; nothing else changes, no event is emitted
and no answer is given (R126, R130). -/
def State.raise (s : State) (kind : FaultKind) (r : Request) : State := { s with fault := some ⟨kind, r⟩ }

/-- Admission of a host request, in the order of R125. -/
def admission (r : Request) (s : State) (run : State → Out) : Out :=
  if s.fault.isSome then .fault .quiescent
  else if !assigned r.code then .next (s.raise .illegalRequest r)
  else if s.mode = .scrolling then .next (s.raise .busyViolation r)
  else if !s.initialized && r.code ≠ 0x01 then .next (s.raise .notInitialized r)
  else run s

/-- An action of the block itself, which passes no admission: it takes place unless the block is quiescent (R130). -/
def perform (s : State) (act : State → State) : Out :=
  if s.fault.isSome then .fault .quiescent else .next (act s)

/-- The end of a request that returns only a result code: on `Ok` its effect and the answer, on any other code the
answer and nothing else (R124). -/
def finish (r : Result) (effect : State → State) (s : State) : Out :=
  match r with
  | .ok => .next ((effect s).respond ⟨.ok, none⟩)
  | code => .next (s.respond ⟨code, none⟩)

/-- The end of a request that returns a value: on `Ok` its effect and the answer with the value, on any other code the
answer with the empty list and nothing else (R124, R103, R109). -/
def finishWith (r : Result) (value : List Byte) (effect : State → State) (s : State) : Out :=
  match r with
  | .ok => .next ((effect s).respond ⟨.ok, some value⟩)
  | code => .next (s.respond ⟨code, some []⟩)

/-- The bytes of the pixel register, byte 0 first (R107). -/
def bytesOf (b : PixelRegister) : List Byte := b.toList

/-- Byte c of the pixel register; an index outside [0,16) addresses nothing and reads 0 (R40). -/
def columnByte (b : PixelRegister) (c : Nat) : Byte := b[c]?.getD 0

/-- The pixel (row, col) is lit: `buf[col][row]` (R22, R40). -/
def pixel (b : PixelRegister) (row col : Nat) : Bool := (columnByte b col).getLsbD row

/-- Bit r of a byte set to `on`, the other seven unchanged (R46, R96). -/
def writeBit (v : Byte) (r : Nat) (on : Bool) : Byte :=
  if on then v ||| (1#8 <<< r) else v &&& ~~~(1#8 <<< r)

/-- `setbit(r, c, on)`: outside the grid nothing, inside bit r of byte c (R96). -/
def setbit (r c : Int) (on : Bool) (b : PixelRegister) : PixelRegister :=
  if inGrid r c then b.setIfInBounds c.toNat (writeBit (columnByte b c.toNat) r.toNat on) else b

/-- Every pixel of a region set to `on`, every other pixel as before: the effect of `setbit` over the region, clipped to
the grid (R105, R106). -/
def setWhere (region : Nat → Nat → Bool) (on : Bool) (b : PixelRegister) : PixelRegister :=
  columnsOf fun r c => if region r c then on else pixel b r c

/-- The cleared pixel register: 16 zero bytes (R97, R101). -/
def clearedBuffer : PixelRegister := Vector.replicate 16 0

/-- The events of RENDER: the pixel register through `writeFrame` (R100). -/
def renderEvents (b : PixelRegister) : List Event := writeFrameEvents Config.timing (bytesOf b)

/-- RENDER: the pixel register on the wire (R100). -/
def State.render (s : State) : State := s.emit (renderEvents s.buf)

end Sys2Proof.Machine
end

