-- ==== Sys2Proof/Machine/Buffer.lean ====
section
/-! DEFINITION. The host requests of `41_frame_buffer.md`: the pixel register. -/

namespace Sys2Proof.Machine

/-- A new matrix session: pins, ⊥ line levels, a zero buffer (R97, R98). -/
def State.beginSession (s : State) (clk din : PinId) : State :=
  { s with
    clkPin := clk
    dinPin := din
    clk := none
    din := none
    buf := clearedBuffer
    initialized := true
    sessions := s.sessions ++ [⟨clk, din, s.trace.length⟩] }

/-- INIT (R97). It emits no event and does not clear a fault. -/
def execInit (clk din : PinId) (s : State) : Out :=
  admission ⟨0x01, [.pin clk, .pin din], rfl⟩ s <| finish (checkInit clk din) fun s => s.beginSession clk din

/-- SET_PIXEL (R99). -/
def execSetPixel (row col : Int) (on : Bool) (s : State) : Out :=
  admission ⟨0x20, [.int row, .int col, .bool on], rfl⟩ s <|
    finish (checkSetPixel row col) fun s => { s with buf := setbit row col on s.buf }

/-- RENDER (R100). -/
def execRender (s : State) : Out :=
  admission ⟨0x21, [], rfl⟩ s <| finish .ok State.render

/-- CLEAR: zero the buffer, then render (R101). -/
def execClear (s : State) : Out :=
  admission ⟨0x22, [], rfl⟩ s <| finish .ok fun s => State.render { s with buf := clearedBuffer }

/-- LOAD_IMAGE: replace the buffer by the grid, then render (R102). -/
def execLoadImage (grid : List (List Bool)) (s : State) : Out :=
  admission ⟨0x23, [.grid grid], rfl⟩ s <|
    finish (checkLoadImage grid) fun s => State.render { s with buf := columnsOf (gridAt grid) }

/-- PARSE_PATTERN: replace the buffer by the pattern and return its bytes; no render (R103). -/
def execParsePattern (text : Text) (s : State) : Out :=
  admission ⟨0x24, [.text text], rfl⟩ s <|
    finishWith (checkPattern (splitLines text)) (bytesOf (columnsOf (patternAt (splitLines text)))) fun s =>
      { s with buf := columnsOf (patternAt (splitLines text)) }

/-- The pixels of a rectangle: first column x, first row y, w columns, h rows (R105). -/
def inRect (x y w h : Int) (row col : Nat) : Bool :=
  decide (y ≤ row ∧ row < y + h ∧ x ≤ col ∧ col < x + w)

/-- DRAW_RECT: the filled rectangle, clipped to the grid; no render (R105). -/
def execDrawRect (x y w h : Int) (on : Bool) (s : State) : Out :=
  admission ⟨0x25, [.int x, .int y, .int w, .int h, .bool on], rfl⟩ s <|
    finish .ok fun s => { s with buf := setWhere (inRect x y w h) on s.buf }

/-- The pixels of a horizontal or vertical segment, its endpoints in either order (R106). -/
def onSegment (r0 c0 r1 c1 : Int) (row col : Nat) : Bool :=
  if r0 = r1 then decide ((row : Int) = r0 ∧ min c0 c1 ≤ col ∧ col ≤ max c0 c1)
  else decide ((col : Int) = c0 ∧ min r0 r1 ≤ row ∧ row ≤ max r0 r1)

/-- DRAW_LINE: a horizontal or vertical segment lit, clipped to the grid; a diagonal is `Unsupported`; no render
(R106). -/
def execDrawLine (r0 c0 r1 c1 : Int) (s : State) : Out :=
  admission ⟨0x26, [.int r0, .int c0, .int r1, .int c1], rfl⟩ s <|
    finish (checkDrawLine r0 c0 r1 c1) fun s => { s with buf := setWhere (onSegment r0 c0 r1 c1) true s.buf }

/-- READ_BUFFER: the 16 bytes on the result port (R107). -/
def execReadBuffer (s : State) : Out :=
  admission ⟨0x27, [], rfl⟩ s fun s => finishWith .ok (bytesOf s.buf) id s

/-- A request with an unassigned code: IllegalRequest is recorded and nothing else happens (R79, R129). The term with an
assigned code is no request, and is refused by name. Log entry 16. -/
def execIllegalRequest (code : Byte) (operands : List Operand) (s : State) : Out :=
  if h : assigned code = false then
    admission (Request.unassigned code operands h) s fun _ => .refused (.assignedCode code)
  else if s.fault.isSome then .fault .quiescent
  else .refused (.assignedCode code)

/-! The loops of R105 and R106 as the spec writes them, for the statement that `setWhere` has their effect. -/

/-- `for r in y..y+k-1: setbit(r, c, on)`. -/
def columnLoop (c y : Int) (on : Bool) : Nat → PixelRegister → PixelRegister
  | 0, b => b
  | k + 1, b => columnLoop c (y + 1) on k (setbit y c on b)

/-- `for c in x..x+k-1: for r in y..y+h-1: setbit(r, c, on)` (R105). -/
def rectLoop (x y : Int) (h : Nat) (on : Bool) : Nat → PixelRegister → PixelRegister
  | 0, b => b
  | k + 1, b => rectLoop (x + 1) y h on k (columnLoop x y on h b)

/-- The loops of R106: along the row for a horizontal segment, along the column for a vertical one. -/
def lineLoop (r0 c0 r1 c1 : Int) (b : PixelRegister) : PixelRegister :=
  if r0 = r1 then rectLoop (min c0 c1) r0 1 true (max c0 c1 - min c0 c1 + 1).toNat b
  else columnLoop c0 (min r0 r1) true (max r0 r1 - min r0 r1 + 1).toNat b

/-- `gridOf(b)[r][c] = b[c][r]`: the grid that a buffer shows (R104). -/
def gridOf (b : PixelRegister) : List (List Bool) :=
  (List.range 8).map fun r => (List.range 16).map fun c => pixel b r c

end Sys2Proof.Machine
end

