-- ==== Sys2Proof/Machine/Internal.lean ====
section
/-! DEFINITION. The internal primitives of `40_wire_protocol.md` section 1 and the wire command bytes of
`30_encoding.md` section 2. The host cannot issue them (R78); their meaning is what the block puts on the wire when a
request runs them, and no step of the block runs one by itself. Log entry 10. -/

namespace Sys2Proof.Machine

/-- SEND_BIT (R85). -/
def execSendBit (b : Level) (s : State) : Out :=
  perform s fun s => s.emit (bitCell Config.timing b)

/-- SEND_BYTE (R86). -/
def execSendByte (x : Int) (s : State) : Out :=
  perform s fun s => s.emit (byteCells Config.timing (low8 x))

/-- START (R87). -/
def execStartSignal (s : State) : Out :=
  perform s fun s => s.emit (startCondition Config.timing)

/-- END (R88). -/
def execEndSignal (s : State) : Out :=
  perform s fun s => s.emit (endCondition Config.timing)

/-- SEND_COMMAND (R89). -/
def execSendCommand (x : Int) (s : State) : Out :=
  perform s fun s => s.emit (commandFrame Config.timing (low8 x))

/-- CMD_AUTO_INCREMENT: the first frame of a write, `0x40` (R64, R90). -/
def execCmdAutoIncrement (s : State) : Out :=
  perform s fun s => s.emit (commandFrame Config.timing byteAutoIncrement)

/-- CMD_ADDRESS_0: the opening of the address frame, the start condition and `0xC0`; data bytes and the end condition
follow (R64, R90). -/
def execCmdAddress0 (s : State) : Out :=
  perform s fun s => s.emit (startCondition Config.timing ++ byteCells Config.timing byteAddress0)

/-- CMD_DISPLAY_ON_DEFAULT: the third frame of a write, `0x88` (R64, R90). -/
def execCmdDisplayOnDefault (s : State) : Out :=
  perform s fun s => s.emit (commandFrame Config.timing byteDisplayOnDefault)

/-- CMD_TURN_ON: the command frame `0xA0` (R64, R91). -/
def execCmdTurnOn (s : State) : Out :=
  perform s fun s => s.emit (commandFrame Config.timing byteTurnOn)

/-- CMD_DISPLAY_OFF: the command frame `0x80` (R64, R92). -/
def execCmdDisplayOff (s : State) : Out :=
  perform s fun s => s.emit (commandFrame Config.timing byteDisplayOff)

/-- CMD_BRIGHTNESS: the command frame `0b10001LLL` (R65, R93). -/
def execCmdBrightness (level : BitVec 3) (s : State) : Out :=
  perform s fun s => s.emit (commandFrame Config.timing (byteBrightness level))

/-- WIRE_DATA_BYTE: one data byte of the address frame (R68, R90). -/
def execWireDataByte (d : Byte) (s : State) : Out :=
  perform s fun s => s.emit (byteCells Config.timing d)

end Sys2Proof.Machine
end

