-- ==== Sys2Proof/Machine/Scroll.lean ====
section
/-! DEFINITION. The scroll bitmap builder and the scroll state machine, `43_scroll.md`. -/

namespace Sys2Proof.Machine

/-- Sixteen zero columns: the pad before and after the text (R115). -/
def scrollPad : List Byte := List.replicate 16 0

/-- The glyphs of the characters with one zero column between two of them (R115). -/
def textColumns (font : Font) (fold : Bool) : Text → List Byte
  | [] => []
  | [ch] => glyphOf font fold ch
  | ch :: rest => glyphOf font fold ch ++ 0 :: textColumns font fold rest

/-- `buildScrollBitmap(text)`: pad, text, pad (R115). -/
def scrollBitmap (font : Font) (fold : Bool) (text : Text) : List Byte :=
  scrollPad ++ textColumns font fold text ++ scrollPad

/-- BUILD_SCROLL_BITMAP: the bitmap on the result port; no event, no state written (R115). -/
def execBuildScrollBitmap (text : Text) (s : State) : Out :=
  admission ⟨0x40, [.text text], rfl⟩ s <|
    finishWith .ok (scrollBitmap Config.font Config.foldCase text) id

/-- The first offset of a scroll over a bitmap of L columns (R117). -/
def firstOffset (step : ScrollStep) (length : Nat) : Int :=
  match step with
  | .forward => 0
  | .backward => length - 16

/-- The final offset of a scroll over a bitmap of L columns (R117). -/
def finalOffset (step : ScrollStep) (length : Nat) : Int :=
  match step with
  | .forward => length - 16
  | .backward => -16

/-- The acceptance of a scroll: the scroll registers and the mode; no event, and the answer waits for the end (R117). -/
def State.acceptScroll (s : State) (bitmap : List Byte) (speed : Nat) (step : ScrollStep) : State :=
  { s with
    mode := .scrolling
    scrBitmap := bitmap
    scrOff := firstOffset step bitmap.length
    scrLast := finalOffset step bitmap.length
    scrStep := step
    scrSpeed := speed }

/-- SCROLL_TEXT: `OutOfRange` at once for a negative speed or another direction; otherwise accepted, and the answer is
given by the last tick (R117, R119). -/
def execScrollText (text : Text) (speed dir : Int) (s : State) : Out :=
  admission ⟨0x41, [.text text, .int speed, .int dir], rfl⟩ s fun s =>
    match checkScrollText speed dir, scrollStepOf dir with
    | .ok, some step =>
      .next (s.acceptScroll (scrollBitmap Config.font Config.foldCase text) speed.toNat step)
    | _, _ => .next (s.respond ⟨.outOfRange, none⟩)

/-- Column j of a bitmap; a column outside `[0, length)` is 0 (R118). -/
def bitmapColumn (bitmap : List Byte) (j : Int) : Byte :=
  if 0 ≤ j then bitmap.getD j.toNat 0 else 0

/-- The 16 columns that the window shows at an offset (R118, R120). -/
def scrollWindow (bitmap : List Byte) (off : Int) : PixelRegister :=
  Vector.ofFn fun i : Fin 16 => bitmapColumn bitmap (off + (i : Nat))

/-- The first part of a tick: the window into the buffer, the render, the delay (R118). -/
def State.scrollFrame (s : State) : State :=
  (State.render { s with buf := scrollWindow s.scrBitmap s.scrOff }).emit [.millis s.scrSpeed]

/-- The second part of a tick: at the final offset the scroll ends and SCROLL_TEXT answers `Ok` (R119); otherwise the
offset moves on (R118). -/
def State.scrollAdvance (s : State) : State :=
  if s.scrOff = s.scrLast then State.respond { s with mode := .idle } ⟨.ok, none⟩
  else { s with scrOff := s.scrOff + stepInt s.scrStep }

/-- SCROLL_TICK: one step of the scroll sequencer, enabled only while a scroll runs (R118). -/
def execScrollTick (s : State) : Out :=
  if s.fault.isSome then .fault .quiescent
  else
    match s.mode with
    | .idle => .fault .tickNotEnabled
    | .scrolling => .next s.scrollFrame.scrollAdvance

end Sys2Proof.Machine
end

