-- ==== Sys2Proof/Machine/Transpose.lean ====
section
/-! DEFINITION. The transpose engine, `42_transpose.md`. -/

namespace Sys2Proof.Machine

/-- The n column bytes: bit r of column c is bit `7 - c mod 8` of element `r*n + c/8` (R109). -/
def transposeColumns (pattern : List Int) (n : Nat) : List Byte :=
  (List.range n).map fun c =>
    byteOfRows fun r => (low8 (pattern.getD (r * n + c / 8) 0)).getLsbD (7 - c % 8)

/-- TRANSPOSE: a pure function of its operands; no event, the buffer is not written (R109). -/
def execTranspose (pattern : List Int) (totalColumns : Int) (s : State) : Out :=
  admission ⟨0x30, [.ints pattern, .int totalColumns], rfl⟩ s <|
    finishWith (checkTranspose pattern totalColumns) (transposeColumns pattern totalColumns.toNat) id

/-- `untranspose(out, n)`: the row-major pattern of 8n bytes that TRANSPOSE takes to `out`, every unused bit 0. It is no
request (R112). -/
def untranspose (out : List Byte) (n : Nat) : List Byte :=
  (List.range (8 * n)).map fun i =>
    byteOfRows fun b =>
      let column := 8 * (i % n) + (7 - b)
      decide (column < n) && (out.getD column 0).getLsbD (i / n)

/-- The row-major pattern of an 8 × 16 grid with a row stride of 16 bytes, 128 bytes (R114). -/
def rowMajorOf (grid : List (List Bool)) : List Byte :=
  (List.range 128).map fun i =>
    byteOfRows fun b => decide (i % 16 < 2) && gridAt grid (i / 16) (8 * (i % 16) + (7 - b))

end Sys2Proof.Machine
end

