-- ==== Sys2Proof/Machine/WireRequests.lean ====
section
/-! DEFINITION. The host requests of `40_wire_protocol.md` section 2. -/

namespace Sys2Proof.Machine

/-- WRITE_FRAME: 16 elements, each by its low 8 bits, in three frames; the pixel register is neither read nor written
(R90). -/
def execWriteFrame (data : List Int) (s : State) : Out :=
  admission ⟨0x10, [.ints data], rfl⟩ s <|
    finish (checkWriteFrame data) fun s => s.emit (writeFrameEvents Config.timing (data.map low8))

/-- TURN_ON: the command frame `0xA0` (R91). -/
def execTurnOn (s : State) : Out :=
  admission ⟨0x11, [], rfl⟩ s <| finish .ok fun s => s.emit (commandFrame Config.timing byteTurnOn)

/-- TURN_OFF: the command frame `0x80`; the block keeps no "off" state (R92). -/
def execTurnOff (s : State) : Out :=
  admission ⟨0x12, [], rfl⟩ s <| finish .ok fun s => s.emit (commandFrame Config.timing byteDisplayOff)

/-- BRIGHTNESS: the command frame `0x88 | level`; the level is not stored (R93). -/
def execBrightness (level : Int) (s : State) : Out :=
  admission ⟨0x13, [.int level], rfl⟩ s <|
    finish (checkBrightness level) fun s =>
      s.emit (commandFrame Config.timing (byteDisplayOnDefault ||| low8 level))

end Sys2Proof.Machine
end

