-- ==== Sys2Proof/Machine/Dispatch.lean ====
section
/-! DEFINITION. The meaning of every instruction: one arm per constructor of `Instr`. -/

namespace Sys2Proof.Machine

/-- The meaning of an instruction, by its constructor. -/
def exec (i : Instr) (s : State) : Host.Outcome State Fault Refusal :=
  match i with
  | .init clk din => Sys2Proof.Machine.execInit clk din s
  | .writeFrame data => Sys2Proof.Machine.execWriteFrame data s
  | .turnOn => Sys2Proof.Machine.execTurnOn s
  | .turnOff => Sys2Proof.Machine.execTurnOff s
  | .brightness level => Sys2Proof.Machine.execBrightness level s
  | .setPixel row col on => Sys2Proof.Machine.execSetPixel row col on s
  | .render => Sys2Proof.Machine.execRender s
  | .clear => Sys2Proof.Machine.execClear s
  | .loadImage grid => Sys2Proof.Machine.execLoadImage grid s
  | .parsePattern text => Sys2Proof.Machine.execParsePattern text s
  | .drawRect x y w h on => Sys2Proof.Machine.execDrawRect x y w h on s
  | .drawLine r0 c0 r1 c1 => Sys2Proof.Machine.execDrawLine r0 c0 r1 c1 s
  | .readBuffer => Sys2Proof.Machine.execReadBuffer s
  | .transpose pattern totalColumns => Sys2Proof.Machine.execTranspose pattern totalColumns s
  | .buildScrollBitmap text => Sys2Proof.Machine.execBuildScrollBitmap text s
  | .scrollText text speed dir => Sys2Proof.Machine.execScrollText text speed dir s
  | .illegalRequest code operands => Sys2Proof.Machine.execIllegalRequest code operands s
  | .cmdAutoIncrement => Sys2Proof.Machine.execCmdAutoIncrement s
  | .cmdAddress0 => Sys2Proof.Machine.execCmdAddress0 s
  | .cmdDisplayOnDefault => Sys2Proof.Machine.execCmdDisplayOnDefault s
  | .cmdTurnOn => Sys2Proof.Machine.execCmdTurnOn s
  | .cmdDisplayOff => Sys2Proof.Machine.execCmdDisplayOff s
  | .cmdBrightness level => Sys2Proof.Machine.execCmdBrightness level s
  | .wireDataByte d => Sys2Proof.Machine.execWireDataByte d s
  | .sendBit b => Sys2Proof.Machine.execSendBit b s
  | .sendByte x => Sys2Proof.Machine.execSendByte x s
  | .startSignal => Sys2Proof.Machine.execStartSignal s
  | .endSignal => Sys2Proof.Machine.execEndSignal s
  | .sendCommand x => Sys2Proof.Machine.execSendCommand x s
  | .scrollTick => Sys2Proof.Machine.execScrollTick s

end Sys2Proof.Machine
end

