-- ==== Sys2Proof/Machine/Fetch.lean ====
section
/-! DEFINITION. The parts of a step: taking a request from the request port, and a turn in which the host issues nothing.
The block has no program counter and fetches no instructions (R32): its instructions come from the host, one request a
turn (R52, R74), and from its own scroll sequencer while a scroll runs (R18). -/

namespace Sys2Proof.Machine

/-- A request on the port: decoded and run. -/
def runRequest (r : Request) (s : State) : Out := exec (decodeRequest r) s

/-- A turn in which the host issues nothing: the sequencer's tick while a scroll runs, and otherwise nothing at all, for
the block acts only when a request or a tick runs (R138). -/
def quietTurn (s : State) : Out :=
  match s.mode with
  | .scrolling => exec .scrollTick s
  | .idle => .next s

/-- One turn: what the host does, and what the block does with it. A request that waits for the one before to be answered
stays until the scroll has ended (R137). -/
def runTurn (s : State) : Out :=
  match s.host with
  | [] => quietTurn s
  | .issue r :: rest => runRequest r { s with host := rest }
  | .issueWhenReady r :: rest =>
    match s.mode with
    | .idle => runRequest r { s with host := rest }
    | .scrolling => quietTurn s
  | .pass :: rest => quietTurn { s with host := rest }

/-- A turn with the request of a table word before the host's other turns. A word that is no request leaves them as they
are. -/
def withRequestWord (s : State) (w : Nat) : State :=
  match tableRequest w with
  | some r => { s with host := .issue r :: s.host }
  | none => s

end Sys2Proof.Machine
end

