-- ==== Sys2Proof/Machine/Step.lean ====
section
/-! DEFINITION. One step of the block: a turn, unless the block is quiescent (R130). -/

namespace Sys2Proof.Machine

/-- One step. With a fault recorded no request and no tick has a step (R130). -/
def step (s : State) : Host.Outcome State Fault Refusal :=
  if s.fault.isSome then .fault .quiescent else runTurn s

/-- The state with the request of a table word at the request port, as the very next thing the host issues. Log
entry 13. -/
def State.withFetchWord (s : State) (_nbits w : Nat) : State := withRequestWord s w

end Sys2Proof.Machine
end

