-- ==== Sys2Proof/Machine/Assembler.lean ====
section
/-! DEFINITION. The assembler syntax of `30_encoding.md` rule R82 and the program encoding of rule R84: a line of text is
a request, and a program is a list of requests, which a dutiful host issues in order. -/

namespace Sys2Proof.Machine

/-- The mnemonics of R75 with their codes. -/
def mnemonicTable : List (Text × Byte) :=
  [ ("INIT".toList, 0x01),
    ("WRITE_FRAME".toList, 0x10),
    ("TURN_ON".toList, 0x11),
    ("TURN_OFF".toList, 0x12),
    ("BRIGHTNESS".toList, 0x13),
    ("SET_PIXEL".toList, 0x20),
    ("RENDER".toList, 0x21),
    ("CLEAR".toList, 0x22),
    ("LOAD_IMAGE".toList, 0x23),
    ("PARSE_PATTERN".toList, 0x24),
    ("DRAW_RECT".toList, 0x25),
    ("DRAW_LINE".toList, 0x26),
    ("READ_BUFFER".toList, 0x27),
    ("TRANSPOSE".toList, 0x30),
    ("BUILD_SCROLL_BITMAP".toList, 0x40),
    ("SCROLL_TEXT".toList, 0x41) ]

/-- The text after its leading blanks. -/
def skipBlanks : Text → Text
  | [] => []
  | ch :: rest => if ch = ' ' ∨ ch = '\t' then skipBlanks rest else ch :: rest

/-- The value of a hexadecimal digit. -/
def hexDigit (ch : Char) : Option Nat :=
  if '0' ≤ ch ∧ ch ≤ '9' then some (ch.toNat - 48)
  else if 'A' ≤ ch ∧ ch ≤ 'F' then some (ch.toNat - 55)
  else if 'a' ≤ ch ∧ ch ≤ 'f' then some (ch.toNat - 87)
  else none

/-- The digits of a base from here on, read after a value, and the text after them. -/
def readDigits (base : Nat) (value : Nat) : Text → Nat × Text
  | [] => (value, [])
  | ch :: rest =>
    match hexDigit ch with
    | some v => if v < base then readDigits base (value * base + v) rest else (value, ch :: rest)
    | none => (value, ch :: rest)

/-- A digit of the base comes first. -/
def startsWithDigit (base : Nat) : Text → Bool
  | [] => false
  | ch :: _ => ((hexDigit ch).map fun v => decide (v < base)).getD false

/-- A decimal number. -/
def readDecimal (text : Text) : Option (Nat × Text) :=
  if startsWithDigit 10 text then some (readDigits 10 0 text) else none

/-- An Int literal: decimal, with a sign or without, or hexadecimal after `0x`. -/
def readInt : Text → Option (Int × Text)
  | '0' :: 'x' :: text =>
    if startsWithDigit 16 text then some ((readDigits 16 0 text).map Int.ofNat id) else none
  | '-' :: text => (readDecimal text).map fun p => p.map (fun n => -Int.ofNat n) id
  | text => (readDecimal text).map fun p => p.map Int.ofNat id

/-- A Bool literal, `0` or `1`. -/
def readBool : Text → Option (Bool × Text)
  | '0' :: text => some (false, text)
  | '1' :: text => some (true, text)
  | _ => none

/-- A PinId, `P<n>`. -/
def readPin : Text → Option (PinId × Text)
  | 'P' :: text => (readDecimal text).map fun p => p.map PinId.mk id
  | _ => none

/-- The characters of a string up to its closing quote, with `\n` for a line feed. -/
def readTextBody : Text → Option (Text × Text)
  | [] => none
  | '"' :: rest => some ([], rest)
  | '\\' :: 'n' :: rest => (readTextBody rest).map fun p => p.map (fun t => '\n' :: t) id
  | '\\' :: _ => none
  | ch :: rest => (readTextBody rest).map fun p => p.map (fun t => ch :: t) id

/-- A string in double quotes. -/
def readText : Text → Option (Text × Text)
  | '"' :: text => readTextBody text
  | _ => none

/-- A row of a LOAD_IMAGE grid: a string of `0` and `1`. -/
def readRow (text : Text) : Option (List Bool × Text) :=
  match readText text with
  | none => none
  | some (row, rest) =>
    if row.all fun ch => ch = '0' || ch = '1' then some (row.map fun ch => decide (ch = '1'), rest) else none

/-- The elements of a list after its first, up to the closing bracket. -/
def readMore {α : Type} (read : Text → Option (α × Text)) : Nat → Text → Option (List α × Text)
  | 0, _ => none
  | fuel + 1, text =>
    match skipBlanks text with
    | ']' :: rest => some ([], rest)
    | ',' :: rest =>
      match read (skipBlanks rest) with
      | none => none
      | some (v, rest) => (readMore read fuel rest).map fun p => p.map (fun vs => v :: vs) id
    | _ => none

/-- A list `[a, b, ...]`. -/
def readList {α : Type} (read : Text → Option (α × Text)) : Text → Option (List α × Text)
  | '[' :: text =>
    match skipBlanks text with
    | ']' :: rest => some ([], rest)
    | first =>
      match read first with
      | none => none
      | some (v, rest) => (readMore read rest.length rest).map fun p => p.map (fun vs => v :: vs) id
  | _ => none

/-- An operand of a type. -/
def readOperand (type : OperandType) (text : Text) : Option (Operand × Text) :=
  match type with
  | .pin => (readPin text).map fun p => p.map Operand.pin id
  | .int => (readInt text).map fun p => p.map Operand.int id
  | .bool => (readBool text).map fun p => p.map Operand.bool id
  | .text => (readText text).map fun p => p.map Operand.text id
  | .ints => (readList readInt text).map fun p => p.map Operand.ints id
  | .grid => (readList readRow text).map fun p => p.map Operand.grid id

/-- The operands after the first, each after a comma. -/
def readRest : List OperandType → Text → Option (List Operand × Text)
  | [], text => some ([], text)
  | type :: types, text =>
    match skipBlanks text with
    | ',' :: rest =>
      match readOperand type (skipBlanks rest) with
      | none => none
      | some (v, rest) => (readRest types rest).map fun p => p.map (fun vs => v :: vs) id
    | _ => none

/-- The operands of a request, in the order of R76. -/
def readOperands : List OperandType → Text → Option (List Operand × Text)
  | [], text => some ([], text)
  | type :: types, text =>
    match readOperand type (skipBlanks text) with
    | none => none
    | some (v, rest) => (readRest types rest).map fun p => p.map (fun vs => v :: vs) id

/-- A character of a mnemonic. -/
def mnemonicChar (ch : Char) : Bool := decide (('A' ≤ ch ∧ ch ≤ 'Z') ∨ ch = '_')

/-- Nothing but blanks and a comment is left of the line. -/
def lineEnds (text : Text) : Bool :=
  match skipBlanks text with
  | [] => true
  | ch :: _ => ch = ';'

/-- A line of a program: a request, or no request where the line holds none; a line in another form is no line of a
program. -/
def assembleLine (line : Text) : Option (List Request) :=
  let text := skipBlanks line
  if lineEnds text then some []
  else
    match (mnemonicTable.find? fun row => row.1 = text.takeWhile mnemonicChar).map Prod.snd with
    | none => none
    | some code =>
      match readOperands ((signature code).getD []) (text.dropWhile mnemonicChar) with
      | none => none
      | some (operands, rest) =>
        match lineEnds rest, readRequest code operands with
        | true, .ok r => some [r]
        | _, _ => none

/-- The requests of a program, one a line (R82, R84). -/
def assemble (program : List Text) : Option (List Request) := (program.mapM assembleLine).map List.flatten

/-- The turns of a host that issues a program and keeps its duties: each request waits for the answer to the one before
(R137). -/
def programTurns (program : List Request) : List HostTurn := program.map .issueWhenReady

end Sys2Proof.Machine
end

