-- ==== Sys2Proof/Machine/Duration.lean ====
section
/-! DEFINITION. Counting a trace: its pin writes, and the least time it takes when a write takes none and a delay takes
exactly what it asks (`70_reset_and_hazards.md` rules R153 and R154). No rule of the block reads these figures. -/

namespace Sys2Proof.Machine

/-- The number of `W` events. -/
def writesIn : List Event → Nat
  | [] => 0
  | .write _ _ :: es => writesIn es + 1
  | .micros _ :: es => writesIn es
  | .millis _ :: es => writesIn es

/-- The number of `U` events. -/
def delaysIn : List Event → Nat
  | [] => 0
  | .write _ _ :: es => delaysIn es
  | .micros _ :: es => delaysIn es + 1
  | .millis _ :: es => delaysIn es

/-- The least time of some events, in microseconds; a millisecond is 1000 of them. -/
def minimumMicros : List Event → Nat
  | [] => 0
  | .write _ _ :: es => minimumMicros es
  | .micros n :: es => n + minimumMicros es
  | .millis n :: es => 1000 * n + minimumMicros es

end Sys2Proof.Machine
end

