-- ==== Sys2Proof/Machine/Encoder.lean ====
section
/-! DEFINITION. The encoder phases of `40_wire_protocol.md` rule R95: the wire encoder as a hardware sequencer that emits
one event per step. The spec gives them for reference only, and no rule of the block depends on them (R35); here they are a
second machine, which the statements compare with the event lists of `Machine/Wire.lean`. -/

namespace Sys2Proof.Machine

/-- The sub-step of a bit cell, `p0` to `p4` (R95). -/
inductive CellPhase where
  | p0
  | p1
  | p2
  | p3
  | p4
  deriving DecidableEq, Repr

/-- The phases of R95. -/
inductive Phase where
  | s0
  | s1
  | s2
  | s3
  | s4
  /-- `B(k, i, p)`: byte k of the frame, bit i, sub-step p. -/
  | cell (k i : Nat) (p : CellPhase)
  | e0
  | e1
  | e2
  | e3
  | e4
  | e5
  deriving DecidableEq, Repr

/-- The sequencer: the frame being sent, the frames after it, and the phase; with no frame it is idle. -/
structure Encoder where
  frames : List Frame
  phase : Phase
  deriving DecidableEq, Repr

/-- The event emitted in a phase (R95). -/
def phaseEvent (t : Timing) (xs : Frame) : Phase → Event
  | .s0 => .write .clk false
  | .s1 => .micros t.startLow
  | .s2 => .write .clk true
  | .s3 => .write .din true
  | .s4 => .write .din false
  | .cell _ _ .p0 => .write .clk false
  | .cell k i .p1 => .write .din ((xs.getD k 0).getLsbD i)
  | .cell _ _ .p2 => .micros t.bitSetup
  | .cell _ _ .p3 => .write .clk true
  | .cell _ _ .p4 => .micros t.bitHigh
  | .e0 => .write .clk false
  | .e1 => .micros t.endLow
  | .e2 => .write .din false
  | .e3 => .write .clk true
  | .e4 => .micros t.endHigh
  | .e5 => .write .din true

/-- The next phase (R95); after `e5` the next frame's `s0`, or idle. -/
def phaseNext (xs : Frame) : Phase → Phase
  | .s0 => .s1
  | .s1 => .s2
  | .s2 => .s3
  | .s3 => .s4
  | .s4 => .cell 0 7 .p0
  | .cell k i .p0 => .cell k i .p1
  | .cell k i .p1 => .cell k i .p2
  | .cell k i .p2 => .cell k i .p3
  | .cell k i .p3 => .cell k i .p4
  | .cell k i .p4 =>
    if i > 0 then .cell k (i - 1) .p0
    else if k + 1 < xs.length then .cell (k + 1) 7 .p0
    else .e0
  | .e0 => .e1
  | .e1 => .e2
  | .e2 => .e3
  | .e3 => .e4
  | .e4 => .e5
  | .e5 => .s0

/-- One step of the sequencer: the event it emits and what it is after it; idle, it has none. -/
def encoderStep (t : Timing) (e : Encoder) : Option (Event × Encoder) :=
  match e.frames with
  | [] => none
  | xs :: rest =>
    some (phaseEvent t xs e.phase,
      { frames := if e.phase = .e5 then rest else xs :: rest, phase := phaseNext xs e.phase })

/-- The events of at most so many steps of the sequencer, and what it is after them. -/
def encoderRun (t : Timing) : Nat → Encoder → List Event × Encoder
  | 0, e => ([], e)
  | n + 1, e =>
    match encoderStep t e with
    | none => ([], e)
    | some (ev, e') => ((ev :: (encoderRun t n e').1), (encoderRun t n e').2)

end Sys2Proof.Machine
end

