-- ==== Sys2Proof/Machine/Receiver.lean ====
section
/-! DEFINITION. The reference receiver of `30_encoding.md` rule R70, which states what a trace means, and the display
reading of rule R73. The receiver is no part of the block: nothing in `step` reads it (R2). -/

namespace Sys2Proof.Machine

/-- The receiver's state (R70). -/
structure Receiver where
  c : Option Level
  d : Option Level
  inFrame : Bool
  bits : List Level
  bytes : List Byte
  frames : List Frame
  deriving DecidableEq, Repr

/-- The receiver before the first event (R70). -/
def Receiver.start : Receiver := ⟨none, none, false, [], [], []⟩

/-- A rising clock edge inside a frame: a bit is sampled, and eight bits are a byte, most significant bit first (R70).
Inside a frame DIN has always been driven, since the start condition drives it. Log entry 14. -/
def sampleBit (ρ : Receiver) : Receiver :=
  match ρ.d with
  | none => ρ
  | some b =>
    if (ρ.bits ++ [b]).length = 8 then { ρ with bits := [], bytes := ρ.bytes ++ [byteOfBits (ρ.bits ++ [b])] }
    else { ρ with bits := ρ.bits ++ [b] }

/-- The reading of one event (R70). -/
def receive (ρ : Receiver) : Event → Receiver
  | .write .clk l =>
    let ρ' := if ρ.c = some false ∧ l = true ∧ ρ.inFrame then sampleBit ρ else ρ
    { ρ' with c := some l }
  | .write .din l =>
    let ρ' :=
      if ρ.c = some true ∧ ρ.d = some true ∧ l = false then { ρ with inFrame := true, bits := [], bytes := [] }
      else if ρ.c = some true ∧ ρ.d = some false ∧ l = true ∧ ρ.inFrame then
        { ρ with frames := ρ.frames ++ [ρ.bytes], inFrame := false, bits := [], bytes := [] }
      else ρ
    { ρ' with d := some l }
  | .micros _ => ρ
  | .millis _ => ρ

/-- The receiver after a list of events (R70). -/
def receiveAll (ρ : Receiver) (es : List Event) : Receiver := es.foldl receive ρ

/-- `decode(trace)`: the frames of a trace (R70). -/
def decodeTrace (es : List Event) : List Frame := (receiveAll Receiver.start es).frames

/-- The display reading (R73): after a frame `[0x40]` directly followed by a frame `[0xC0, d0, ..., d15]`, column k of the
display holds `dk`; the columns held before stay until then. `none` is "any value" (`93_implementation_defined.md` G4).
Log entry 15. -/
def displayAfter (held : Option (List Byte)) : List Frame → Option (List Byte)
  | [] => held
  | [_] => held
  | f :: g :: rest =>
    if f = [byteAutoIncrement] ∧ g.head? = some byteAddress0 ∧ g.length = 17 then displayAfter (some g.tail) (g :: rest)
    else displayAfter held (g :: rest)

/-- What the display shows after a trace, by the reading of R73. -/
def displayColumns (es : List Event) : Option (List Byte) := displayAfter none (decodeTrace es)

/-- The events of the session that is running (R98). -/
def State.sessionTrace (s : State) : List Event :=
  match s.sessions.getLast? with
  | some mark => s.trace.drop mark.start
  | none => s.trace

/-- The trace cut into its sessions, each with the pins that carry its lines (R98). -/
def sessionParts (trace : List Event) : List SessionMark → List (SessionMark × List Event)
  | [] => []
  | [m] => [(m, trace.drop m.start)]
  | m :: m' :: rest => (m, (trace.take m'.start).drop m.start) :: sessionParts trace (m' :: rest)

/-- The pin that carries a line in a session: each `W(CLK, l)` is `writeDigitalPin(clkPin, l)` with the pin of that
session (R12, R98). -/
def linePin (m : SessionMark) : Line → PinId
  | .clk => m.clkPin
  | .din => m.dinPin

/-- The level of a pin after the events of a session, given its level before. -/
def sessionPinLevel (p : PinId) (m : SessionMark) : List Event → Option Level → Option Level
  | [], l => l
  | .write ln v :: es, l => sessionPinLevel p m es (if linePin m ln = p then some v else l)
  | .micros _ :: es, l => sessionPinLevel p m es l
  | .millis _ :: es, l => sessionPinLevel p m es l

/-- The last level the block drove on a pin in any session, or ⊥ (R152). -/
def State.pinLevel (s : State) (p : PinId) : Option Level :=
  (sessionParts s.trace s.sessions).foldl (fun l part => sessionPinLevel p part.1 part.2 l) none

end Sys2Proof.Machine
end

