-- ==== Sys2Proof/Safety.lean ====
section
/-! DEFINITION. What counts as a good run (`00_scope.md` rule R19), and the words the statements use: when a request is
admitted, what a list of events says to a receiver, and the invariants of the block. -/

namespace Sys2Proof.Machine

/-- Admission lets every host request through: no fault, no scroll running, initialised (R125). -/
def Ready (s : State) : Prop := s.fault = none ∧ s.mode = .idle ∧ s.initialized = true

/-- A good end of a run: `Idle`, nothing more from the host, no fault (R19). -/
def GoodEnd (s : State) : Prop := s.mode = .idle ∧ s.host = [] ∧ s.fault = none

/-- The instruction is a host request with an assigned code: one row of R75 (R77). -/
def hostRequest (i : Instr) : Bool :=
  match encodeRequest i with
  | some r => assigned r.code
  | none => false

/-- The events say exactly these frames: whatever levels a receiver outside a frame has seen before, it reads them and
nothing else, and is outside a frame again with both lines at 1 (R71). -/
def Says (es : List Event) (fs : List Frame) : Prop :=
  ∀ ρ : Receiver, ρ.inFrame = false →
    receiveAll ρ es =
      { c := some true, d := some true, inFrame := false, bits := [], bytes := [], frames := ρ.frames ++ fs }

/-- The pins differ whenever the block is initialised (R24). -/
def PinsDistinct (s : State) : Prop := s.initialized = true → s.clkPin ≠ s.dinPin

/-- Between requests both lines are undriven in this session or both are 1 (R25, R38). -/
def LinesRest (s : State) : Prop :=
  (s.clk = none ∧ s.din = none) ∨ (s.clk = some true ∧ s.din = some true)

/-- The session marks agree with the state: before the first INIT nothing has happened; after it the last mark is the
running session, with its pins, and begins inside the trace (R24, R36, R98). -/
def SessionsAgree (s : State) : Prop :=
  (s.initialized = false → s.sessions = [] ∧ s.trace = [] ∧ s.clk = none ∧ s.din = none ∧ s.mode = .idle) ∧
  (s.initialized = true → ∃ before start, s.sessions = before ++ [⟨s.clkPin, s.dinPin, start⟩] ∧
    start ≤ s.trace.length ∧ ∀ m ∈ before, m.start ≤ start)

/-- The line levels are those the session's events last drove (R25). -/
def LevelsTrack (s : State) : Prop :=
  s.clk = lastLevel .clk s.sessionTrace none ∧ s.din = lastLevel .din s.sessionTrace none

/-- No frame is open: a receiver of the session's events is outside a frame (R35, R62). -/
def FramesClosed (s : State) : Prop := (receiveAll Receiver.start s.sessionTrace).inFrame = false

/-- The registers of a running scroll: the bitmap has its two pads, the final offset is the one of R117, and the offset
lies between the first and the final one (R28, R117, R118). -/
def ScrollBounded (s : State) : Prop :=
  s.mode = .scrolling →
    s.initialized = true ∧ 32 ≤ s.scrBitmap.length ∧ s.scrLast = finalOffset s.scrStep s.scrBitmap.length ∧
    match s.scrStep with
    | .forward => 0 ≤ s.scrOff ∧ s.scrOff ≤ s.scrLast
    | .backward => s.scrLast ≤ s.scrOff ∧ s.scrOff ≤ s.scrBitmap.length - 16

/-- The events of a scroll over its offsets, from one offset on and so many ticks (R120). -/
def scrollEvents (bitmap : List Byte) (speed : Nat) (step : ScrollStep) : Int → Nat → List Event
  | _, 0 => []
  | off, n + 1 =>
    writeFrameEvents Config.timing (bytesOf (scrollWindow bitmap off)) ++ [.millis speed] ++
      scrollEvents bitmap speed step (off + stepInt step) n

/-- Two states that differ only in registers that hold no value: the pixel register and the pins before the first INIT,
the scroll registers while no scroll runs (R28, R36). -/
def SameButUnset (s s' : State) : Prop :=
  s.initialized = s'.initialized ∧ s.pixelRegister = s'.pixelRegister ∧ s.pins = s'.pins ∧ s.scroll = s'.scroll ∧
  s.clk = s'.clk ∧ s.din = s'.din ∧ s.mode = s'.mode ∧ s.fault = s'.fault ∧ s.trace = s'.trace ∧
  s.results = s'.results ∧ s.host = s'.host ∧ s.sessions = s'.sessions

/-- Two outcomes of a step that say the same but for registers that hold no value. -/
def SameOutcome : Out → Out → Prop
  | .next s, .next s' => SameButUnset s s'
  | .fault r, .fault r' => r = r'
  | .refused r, .refused r' => r = r'
  | _, _ => False

/-- Instructions run one after the other, as a request runs the primitives of its pseudocode (R14). -/
def execAll : List Instr → State → Out
  | [], s => .next s
  | i :: rest, s =>
    match exec i s with
    | .next t => execAll rest t
    | .fault r => .fault r
    | .refused r => .refused r

/-- A host that keeps its duties: it issues only requests of R75, each once the one before is answered (R137). Their
operands are of the types of R76 already, as every request's (R77). -/
def Dutiful (turns : List HostTurn) : Prop :=
  ∀ turn ∈ turns, ∃ r : Request, turn = .issueWhenReady r ∧ assigned r.code = true

end Sys2Proof.Machine
end

