-- ==== Sys2Proof/Certificates/Slice0/Obligations.lean ====
section
/-! DEFINITION. The statements for the provers, by family: decoding and encoding, the step and admission, the wire
protocol, the pixel register, the transpose engine, the scroll, and the rules about the whole block. -/

open Sys2Proof Sys2Proof.Machine

/-! ## Decoding and encoding -/

/-- Words written out from R75 and R76 decode to the requests they stand for. -/
def Obligations.WrittenRequestsDecode : Prop :=
  decodeRequest ⟨0x01, [.pin ⟨5⟩, .pin ⟨6⟩], rfl⟩ = .init ⟨5⟩ ⟨6⟩ ∧
  decodeRequest ⟨0x13, [.int 7], rfl⟩ = .brightness 7 ∧
  decodeRequest ⟨0x20, [.int 7, .int 15, .bool true], rfl⟩ = .setPixel 7 15 true ∧
  decodeRequest ⟨0x25, [.int 2, .int 2, .int 4, .int 3, .bool true], rfl⟩ = .drawRect 2 2 4 3 true ∧
  decodeRequest ⟨0x30, [.ints [128, 0], .int 1], rfl⟩ = .transpose [128, 0] 1 ∧
  decodeRequest ⟨0x41, [.text ['A'], .int 10, .int 0], rfl⟩ = .scrollText ['A'] 10 0 ∧
  decodeRequest ⟨0x28, [], rfl⟩ = .illegalRequest 0x28 [] ∧
  decodeFirstByte 0xA0 = some .cmdTurnOn ∧
  decodeFirstByte 0x8F = some (.cmdBrightness 7)

/-- The decoder and the encoder of the request port are inverse to each other, with every operand at every value. -/
def Obligations.DecodeAndEncodeRequestAgree : Prop :=
  ∀ (r : Request) (i : Instr),
    decodeRequest r = i ↔ (i.wellFormed = true ∧ encodeRequest i = some r)

/-- R77: a request has operands of the types of R76 wherever its code is assigned. The rest is the model's. A code and
operands that are no row of R75 and R76 are rejected by name when they are read, an assigned code with other operands alone,
and no step is refused (log entry 16, DESIGN CHOICE); every other code and operand list is the one request with them, any
operands with an unassigned code (log entry 23, DEDUCED). From every state without a fault a step answers a next state,
whatever the host's turn (`issue`, `issueWhenReady`, `pass` or none) and whether or not a scroll runs; the turns, and that a
turn with nothing to do answers a next state, are log entry 2 (DESIGN CHOICE). -/
def Obligations.OnlyMistypedRequestsAreNotRead : Prop :=
  (∀ r : Request, assigned r.code = true → signature r.code = some (r.operands.map operandType)) ∧
  (∀ (code : Byte) (operands : List Operand),
    (readRequest code operands = .error (.mistyped code) ↔
      (assigned code = true ∧ signature code ≠ some (operands.map operandType))) ∧
    ∀ r : Request, readRequest code operands = .ok r ↔ (r.code = code ∧ r.operands = operands)) ∧
  ∀ s : State, s.fault = none → ∃ t, step s = .next t

/-- R79: the unassigned codes are those of its list, each decodes to the illegal request, and the request records
`IllegalRequest`, with itself as the rejected request (R126, R129), and does nothing else, in every mode and before INIT too.
That an unassigned code is a request with ANY operands is the model's inference, log entry 23 (DEDUCED). -/
def Obligations.UnassignedCodesAreIllegal : Prop :=
  ∀ (code : Byte) (operands : List Operand),
    (assigned code = false ↔
      (code.toNat = 0x00 ∨ (0x02 ≤ code.toNat ∧ code.toNat ≤ 0x0F) ∨ (0x14 ≤ code.toNat ∧ code.toNat ≤ 0x1F) ∨
        (0x28 ≤ code.toNat ∧ code.toNat ≤ 0x2F) ∨ (0x31 ≤ code.toNat ∧ code.toNat ≤ 0x3F) ∨
        (0x42 ≤ code.toNat ∧ code.toNat ≤ 0xFF))) ∧
    (assigned code = false → ∃ r : Request, r.code = code ∧ r.operands = operands ∧
      decodeRequest r = .illegalRequest code operands ∧
      ∀ s : State, s.fault = none →
        exec (.illegalRequest code operands) s = .next { s with fault := some ⟨.illegalRequest, r⟩ })

/-- R64 to R66 and R68: the command bytes, the brightness field, the two names of `0x88`, and the twelve first bytes that
R68 lists (R69 counts 13 of them: log entry 25). -/
def Obligations.WireCommandBytes : Prop :=
  (encodeWireByte .cmdAutoIncrement = some 0b01000000 ∧ encodeWireByte .cmdAddress0 = some 0b11000000 ∧
    encodeWireByte .cmdDisplayOnDefault = some 0b10001000 ∧ encodeWireByte .cmdTurnOn = some 0b10100000 ∧
    encodeWireByte .cmdDisplayOff = some 0b10000000) ∧
  (∀ level : BitVec 3, ∃ b : Byte, encodeWireByte (.cmdBrightness level) = some b ∧
    b.extractLsb' 3 5 = 0b10001#5 ∧ b.extractLsb' 0 3 = level) ∧
  encodeWireByte (.cmdBrightness 0) = encodeWireByte .cmdDisplayOnDefault ∧
  (∀ b : Byte, (decodeFirstByte b).isSome = true ↔
    (b = 0x40 ∨ b = 0xC0 ∨ b = 0x80 ∨ (0x88 ≤ b.toNat ∧ b.toNat ≤ 0x8F) ∨ b = 0xA0))

/-- The frames that decode are the command frames and the address frames with 16 data bytes, and a decoded frame encodes
to its own bytes (R62, R68, R69). -/
def Obligations.WireFramesDecodeToTheirBytes : Prop :=
  (∀ (f : Frame) (is : List Instr), decodeFrame f = some is → is.map encodeWireByte = f.map some) ∧
  (∀ f : Frame, (decodeFrame f).isSome = true ↔
    ((∃ d : List Byte, d.length = 16 ∧ f = 0xC0 :: d) ∨
      (∃ b : Byte, f = [b] ∧ (b = 0x40 ∨ b = 0x80 ∨ (0x88 ≤ b.toNat ∧ b.toNat ≤ 0x8F) ∨ b = 0xA0))))

/-- The event sequence of each internal primitive is read back as that primitive, for every timing and operand; of a
byte operand the low 8 bits are what is read back (R57 to R61, R85 to R89). -/
def Obligations.PrimitiveEventsReadBack : Prop :=
  ∀ t : Timing,
    (∀ es, encodeEvents t .startSignal = some es → decodeEvents t es = some .startSignal) ∧
    (∀ es, encodeEvents t .endSignal = some es → decodeEvents t es = some .endSignal) ∧
    (∀ b es, encodeEvents t (.sendBit b) = some es → decodeEvents t es = some (.sendBit b)) ∧
    (∀ x es, encodeEvents t (.sendByte x) = some es → decodeEvents t es = some (.sendByte (x % 256))) ∧
    (∀ x es, encodeEvents t (.sendCommand x) = some es → decodeEvents t es = some (.sendCommand (x % 256)))

/-! ## The step, admission and faults -/

/-- A step runs the request the host issues: at once for `issue`, and for `issueWhenReady` when no scroll runs; while one
runs, a waiting request lets a tick run and stays (R52, R74, R137; the host's turns are log entry 2). -/
def Obligations.StepRunsTheDecodedRequest : Prop :=
  ∀ (s : State) (r : Request) (rest : List HostTurn) (i : Instr),
    s.fault = none → decodeRequest r = i → i.wellFormed = true →
      (s.host = .issue r :: rest → step s = exec i { s with host := rest }) ∧
      (s.host = .issueWhenReady r :: rest → s.mode = .idle → step s = exec i { s with host := rest }) ∧
      (s.host = .issueWhenReady r :: rest → s.mode = .scrolling → step s = exec .scrollTick s)

/-- Where the host issues nothing, the sequencer's tick runs while a scroll runs, and otherwise nothing changes but the
turn itself (R18, R138; log entry 2). -/
def Obligations.QuietTurnRunsTheSequencer : Prop :=
  ∀ (s : State) (rest : List HostTurn), s.fault = none →
    (s.host = [] → s.mode = .scrolling → step s = exec .scrollTick s) ∧
    (s.host = [] → s.mode = .idle → step s = .next s) ∧
    (s.host = .pass :: rest → s.mode = .scrolling → step s = exec .scrollTick { s with host := rest }) ∧
    (s.host = .pass :: rest → s.mode = .idle → step s = .next { s with host := rest })

/-- R125 to R129: the checks of admission, in their order, with what each records and that nothing else changes; and a
request that passes them all answers a next state without a fault, of which the statements about that request say more. -/
def Obligations.AdmissionDecidesInOrder : Prop :=
  ∀ (i : Instr) (r : Request) (s : State), encodeRequest i = some r → i.wellFormed = true →
    if s.fault ≠ none then exec i s = .fault .quiescent
    else if assigned r.code = false then exec i s = .next { s with fault := some ⟨.illegalRequest, r⟩ }
    else if s.mode = .scrolling then exec i s = .next { s with fault := some ⟨.busyViolation, r⟩ }
    else if s.initialized = false ∧ r.code ≠ 0x01 then exec i s = .next { s with fault := some ⟨.notInitialized, r⟩ }
    else ∃ t, exec i s = .next t ∧ t.fault = none

/-- R130: with a fault recorded no request, no tick and no step has a step, INIT included, and the run is no good end; and
whatever records a fault changes nothing else and emits no event. That the internal primitives and the wire commands have
no step there either is the model's inference, log entry 5. -/
def Obligations.FaultsAreStickyAndPrecise : Prop :=
  (∀ (i : Instr) (s : State), s.fault ≠ none →
    exec i s = .fault .quiescent ∧ step s = .fault .quiescent ∧ ¬GoodEnd s) ∧
  (∀ (i : Instr) (s t : State), exec i s = .next t → t.fault ≠ s.fault → t = { s with fault := t.fault })

/-- R124: an answer other than `Ok` comes with no other change of the state. -/
def Obligations.RejectedRequestsChangeNothing : Prop :=
  ∀ (i : Instr) (s t : State) (resp : Response), exec i s = .next t → t.results = s.results ++ [resp] →
    resp.result ≠ .ok → t = { s with results := s.results ++ [resp] }

/-- The answer of a request that runs: one answer, of the codes that the table of R123 gives the request, with a value
for exactly the four requests that return one (R30); SCROLL_TEXT answers at once only when it is rejected (R117). -/
def Obligations.EachRequestAnswersAsTabled : Prop :=
  ∀ (i : Instr) (s : State), hostRequest i = true → i.wellFormed = true → Ready s →
    ∃ t : State, exec i s = .next t ∧
      match i with
      | .init _ _ | .brightness _ | .setPixel _ _ _ =>
          ∃ c, t.results = s.results ++ [⟨c, none⟩] ∧ (c = .ok ∨ c = .outOfRange)
      | .writeFrame _ | .loadImage _ =>
          ∃ c, t.results = s.results ++ [⟨c, none⟩] ∧ (c = .ok ∨ c = .invalidDimensions)
      | .turnOn | .turnOff | .render | .clear | .drawRect _ _ _ _ _ => t.results = s.results ++ [⟨.ok, none⟩]
      | .drawLine _ _ _ _ => ∃ c, t.results = s.results ++ [⟨c, none⟩] ∧ (c = .ok ∨ c = .unsupported)
      | .parsePattern _ =>
          ∃ c v, t.results = s.results ++ [⟨c, some v⟩] ∧ (c = .ok ∨ (c = .invalidDimensions ∧ v = []))
      | .readBuffer | .buildScrollBitmap _ => ∃ v, t.results = s.results ++ [⟨.ok, some v⟩]
      | .transpose _ _ =>
          ∃ c v, t.results = s.results ++ [⟨c, some v⟩] ∧
            (c = .ok ∨ ((c = .outOfRange ∨ c = .invalidDimensions) ∧ v = []))
      | .scrollText _ _ _ =>
          (t.mode = .scrolling ∧ t.results = s.results) ∨
            (t.mode = .idle ∧ t.results = s.results ++ [⟨.outOfRange, none⟩])
      | _ => False

/-- A host that keeps the duties of R137 after INIT meets no fault: every step of its run answers a next state without
one, and the host still keeps its duties there. -/
def Obligations.DutifulHostMeetsNoFault : Prop :=
  ∀ s : State, s.fault = none → s.initialized = true → Dutiful s.host →
    ∃ t, step s = .next t ∧ t.fault = none ∧ t.initialized = true ∧ Dutiful t.host

/-! ## The wire protocol -/

/-- R85, R87, R88: the events of a bit cell, a start and an end condition, with the line levels they leave. -/
def Obligations.BitStartAndEndEvents : Prop :=
  ∀ s : State, s.fault = none →
    (∀ b : Level, exec (.sendBit b) s = .next { s with
      trace := s.trace ++ [.write .clk false, .write .din b, .micros 2, .write .clk true, .micros 2]
      clk := some true, din := some b }) ∧
    exec .startSignal s = .next { s with
      trace := s.trace ++ [.write .clk false, .micros 1, .write .clk true, .write .din true, .write .din false]
      clk := some true, din := some false } ∧
    exec .endSignal s = .next { s with
      trace := s.trace ++
        [.write .clk false, .micros 2, .write .din false, .write .clk true, .micros 1, .write .din true]
      clk := some true, din := some true }

/-- R86 and R89: a byte is sent by its low 8 bits, bit 7 first; a command is one such byte in a frame of its own. -/
def Obligations.ByteAndCommandEvents : Prop :=
  ∀ (s : State) (x : Int) (v : Byte), s.fault = none → (v.toNat : Int) = x % 256 →
    exec (.sendByte x) s = .next { s with
      trace := s.trace ++ ([7, 6, 5, 4, 3, 2, 1, 0].flatMap fun i =>
        [.write .clk false, .write .din (v.getLsbD i), .micros 2, .write .clk true, .micros 2])
      clk := some true, din := some (v.getLsbD 0) } ∧
    ∃ es, exec (.sendCommand x) s = .next { s with
        trace := s.trace ++ es, clk := some true, din := some true } ∧
      es = startCondition Config.timing ++ byteCells Config.timing v ++ endCondition Config.timing ∧
      es.length = 51 ∧ Says es [[v]]

/-- Each wire command byte that is a frame of its own is sent as that frame; the address command opens the address frame,
a data byte is one byte of it (R58, R62, R64, R65). What the rows of the wire commands do in the model is log entry 10. -/
def Obligations.WireCommandsAreSent : Prop :=
  ∀ s : State, s.fault = none →
    (∀ (i : Instr) (b : Byte),
      (i = .cmdAutoIncrement ∧ b = 0x40) ∨ (i = .cmdDisplayOnDefault ∧ b = 0x88) ∨ (i = .cmdTurnOn ∧ b = 0xA0) ∨
          (i = .cmdDisplayOff ∧ b = 0x80) ∨ (∃ level : BitVec 3, i = .cmdBrightness level ∧ b.toNat = 0x88 + level.toNat) →
        ∃ es, exec i s = .next { s with trace := s.trace ++ es, clk := some true, din := some true } ∧
          es = frameEvents Config.timing [b] ∧ es.length = 51 ∧ Says es [[b]]) ∧
    exec .cmdAddress0 s = .next { s with
      trace := s.trace ++ (startCondition Config.timing ++ byteCells Config.timing 0xC0)
      clk := some true, din := some false } ∧
    (∀ d : Byte, exec (.wireDataByte d) s = .next { s with
      trace := s.trace ++ byteCells Config.timing d, clk := some true, din := some (d.getLsbD 0) })

/-- R90: WRITE_FRAME sends its three frames for exactly 16 elements, each by its low 8 bits, and is rejected without an
event for any other length; the pixel register stays. -/
def Obligations.WriteFrameSendsThreeFrames : Prop :=
  ∀ (s : State) (data : List Int), Ready s →
    (data.length ≠ 16 →
      exec (.writeFrame data) s = .next { s with results := s.results ++ [⟨.invalidDimensions, none⟩] }) ∧
    (data.length = 16 → ∀ bytes : List Byte, bytes.map (fun v => (v.toNat : Int)) = data.map (· % 256) →
      ∃ es, exec (.writeFrame data) s = .next { s with
          trace := s.trace ++ es, clk := some true, din := some true, results := s.results ++ [⟨.ok, none⟩] } ∧
        es = frameEvents Config.timing [0x40] ++ frameEvents Config.timing (0xC0 :: bytes) ++
          frameEvents Config.timing [0x88] ∧
        es.length = 793 ∧ Says es [[0x40], 0xC0 :: bytes, [0x88]])

/-- WRITE_FRAME is the run of the wire rows of the table: the auto-increment command, the address command, the sixteen
data bytes, the end condition, the display-on command (R63, R90; the rows' meanings are log entry 10). -/
def Obligations.WriteFrameIsTheRunOfItsWireRows : Prop :=
  ∀ (s : State) (data : List Int), Ready s → data.length = 16 →
    ∃ t, execAll ([.cmdAutoIncrement, .cmdAddress0] ++ data.map (fun v => .wireDataByte (low8 v)) ++
          [.endSignal, .cmdDisplayOnDefault]) s = .next t ∧
      exec (.writeFrame data) s = .next { t with results := s.results ++ [⟨.ok, none⟩] }

/-- R91 and R92: the command frames `0xA0` and `0x80`, and nothing kept of them. -/
def Obligations.TurnOnAndTurnOff : Prop :=
  ∀ s : State, Ready s → ∀ (i : Instr) (b : Byte), (i = .turnOn ∧ b = 0xA0) ∨ (i = .turnOff ∧ b = 0x80) →
    ∃ es, exec i s = .next { s with
        trace := s.trace ++ es, clk := some true, din := some true, results := s.results ++ [⟨.ok, none⟩] } ∧
      es = frameEvents Config.timing [b] ∧ es.length = 51 ∧ Says es [[b]]

/-- R93: the byte `0x88 | level` for a level in 0..7, and a rejection without an event for any other; the level is not
stored. -/
def Obligations.BrightnessSendsItsLevel : Prop :=
  ∀ (s : State) (level : Int), Ready s →
    (level < 0 ∨ level > 7 →
      exec (.brightness level) s = .next { s with results := s.results ++ [⟨.outOfRange, none⟩] }) ∧
    (0 ≤ level ∧ level ≤ 7 → ∀ b : Byte, (b.toNat : Int) = 0x88 + level →
      ∃ es, exec (.brightness level) s = .next { s with
          trace := s.trace ++ es, clk := some true, din := some true, results := s.results ++ [⟨.ok, none⟩] } ∧
        es = frameEvents Config.timing [b] ∧ Says es [[b]])

/-- R83: TURN_ON, TURN_OFF and BRIGHTNESS are SEND_COMMAND of their byte and the answer, RENDER is WRITE_FRAME of the
buffer, CLEAR is the zeroed buffer and then RENDER. For a level L in 0..7 the byte `0x88 | L` is the number 0x88 + L. -/
def Obligations.RequestsExpandAsListed : Prop :=
  ∀ s : State, Ready s →
    (∃ t, exec (.sendCommand 0xA0) s = .next t ∧
      exec .turnOn s = .next { t with results := s.results ++ [⟨.ok, none⟩] }) ∧
    (∃ t, exec (.sendCommand 0x80) s = .next t ∧
      exec .turnOff s = .next { t with results := s.results ++ [⟨.ok, none⟩] }) ∧
    (∀ level : Int, 0 ≤ level ∧ level ≤ 7 → ∃ t, exec (.sendCommand (0x88 + level)) s = .next t ∧
      exec (.brightness level) s = .next { t with results := s.results ++ [⟨.ok, none⟩] }) ∧
    exec .render s = exec (.writeFrame (s.buf.toList.map fun v => (v.toNat : Int))) s ∧
    exec .clear s = exec .render { s with buf := Vector.replicate 16 0 }

/-- R71, the frame decoding lemma, which the spec derives from R70, R57, R59 and R60: for every timing, every receiver
outside a frame and every frame of at least one byte. -/
def Obligations.FramesDecodeToTheirBytes : Prop :=
  ∀ (t : Timing) (xs : Frame), xs ≠ [] → Says (frameEvents t xs) [xs]

/-- R95: the encoder seen as a sequencer of one event a step emits, frame after frame, exactly the frames' events and is
then idle. -/
def Obligations.EncoderPhasesEmitTheFrames : Prop :=
  ∀ (t : Timing) (fs : List Frame), (∀ f ∈ fs, f ≠ []) →
    encoderRun t (fs.flatMap (frameEvents t)).length ⟨fs, .s0⟩ = (fs.flatMap (frameEvents t), ⟨[], .s0⟩)

/-- The counts and the least times of R153, row by row, which the spec derives from R85 to R90 and R118. -/
def Obligations.EventCountsAndLeastTimes : Prop :=
  ((startCondition Config.timing).length = 5 ∧ writesIn (startCondition Config.timing) = 4 ∧
    delaysIn (startCondition Config.timing) = 1 ∧ minimumMicros (startCondition Config.timing) = 1) ∧
  ((endCondition Config.timing).length = 6 ∧ writesIn (endCondition Config.timing) = 4 ∧
    delaysIn (endCondition Config.timing) = 2 ∧ minimumMicros (endCondition Config.timing) = 3) ∧
  (∀ b, (bitCell Config.timing b).length = 5 ∧ writesIn (bitCell Config.timing b) = 3 ∧
    delaysIn (bitCell Config.timing b) = 2 ∧ minimumMicros (bitCell Config.timing b) = 4) ∧
  (∀ x, (byteCells Config.timing x).length = 40 ∧ writesIn (byteCells Config.timing x) = 24 ∧
    delaysIn (byteCells Config.timing x) = 16 ∧ minimumMicros (byteCells Config.timing x) = 32) ∧
  (∀ x, (commandFrame Config.timing x).length = 51 ∧ writesIn (commandFrame Config.timing x) = 32 ∧
    delaysIn (commandFrame Config.timing x) = 19 ∧ minimumMicros (commandFrame Config.timing x) = 36) ∧
  (∀ d : List Byte, d.length = 16 →
    (frameEvents Config.timing (0xC0 :: d)).length = 691 ∧ writesIn (frameEvents Config.timing (0xC0 :: d)) = 416 ∧
    delaysIn (frameEvents Config.timing (0xC0 :: d)) = 275 ∧
    minimumMicros (frameEvents Config.timing (0xC0 :: d)) = 548 ∧
    (writeFrameEvents Config.timing d).length = 793 ∧ writesIn (writeFrameEvents Config.timing d) = 480 ∧
    delaysIn (writeFrameEvents Config.timing d) = 313 ∧ minimumMicros (writeFrameEvents Config.timing d) = 620 ∧
    ∀ speed : Nat, (writeFrameEvents Config.timing d ++ [Event.millis speed]).length = 794 ∧
      writesIn (writeFrameEvents Config.timing d ++ [Event.millis speed]) = 480 ∧
      delaysIn (writeFrameEvents Config.timing d ++ [Event.millis speed]) = 313 ∧
      minimumMicros (writeFrameEvents Config.timing d ++ [Event.millis speed]) = 620 + 1000 * speed)

/-! ## The pixel register -/

/-- R97: INIT with two pins begins a session, INIT with one pin for both is rejected; neither emits an event, and the
block need not be initialised before. -/
def Obligations.InitBeginsASession : Prop :=
  ∀ (s : State) (clk din : PinId), s.fault = none → s.mode = .idle →
    (clk = din → exec (.init clk din) s = .next { s with results := s.results ++ [⟨.outOfRange, none⟩] }) ∧
    (clk ≠ din → ∃ t, exec (.init clk din) s = .next t ∧
      t = { s with
        clkPin := clk, dinPin := din, clk := none, din := none, buf := Vector.replicate 16 0, initialized := true
        results := s.results ++ [⟨.ok, none⟩], sessions := t.sessions })

/-- R96 and R99: SET_PIXEL sets the addressed pixel to `on` and leaves the other 127; outside the grid it is rejected. -/
def Obligations.SetPixelSetsOnePixel : Prop :=
  ∀ (s : State) (row col : Int) (on : Bool), Ready s →
    (row < 0 ∨ row > 7 ∨ col < 0 ∨ col > 15 →
      exec (.setPixel row col on) s = .next { s with results := s.results ++ [⟨.outOfRange, none⟩] }) ∧
    (0 ≤ row ∧ row ≤ 7 ∧ 0 ≤ col ∧ col ≤ 15 →
      ∃ b : PixelRegister,
        exec (.setPixel row col on) s = .next { s with buf := b, results := s.results ++ [⟨.ok, none⟩] } ∧
        ∀ r < 8, ∀ c < 16, pixel b r c = if (r : Int) = row ∧ (c : Int) = col then on else pixel s.buf r c)

/-- R100 and R101: RENDER sends the buffer and leaves it; CLEAR zeroes the buffer and sends that. -/
def Obligations.RenderAndClearSendTheBuffer : Prop :=
  ∀ s : State, Ready s → ∀ (i : Instr) (b : PixelRegister),
    (i = .render ∧ b = s.buf) ∨ (i = .clear ∧ b = Vector.replicate 16 0) →
    ∃ es, exec i s = .next { s with
        buf := b, trace := s.trace ++ es, clk := some true, din := some true
        results := s.results ++ [⟨.ok, none⟩] } ∧
      es = writeFrameEvents Config.timing b.toList ∧ es.length = 793 ∧
      Says es [[0x40], 0xC0 :: b.toList, [0x88]]

/-- R102: LOAD_IMAGE of an 8 × 16 grid replaces every pixel by the grid's cell and renders; a grid of another shape is
rejected. -/
def Obligations.LoadImageReplacesAndRenders : Prop :=
  ∀ (s : State) (grid : List (List Bool)), Ready s →
    (¬(grid.length = 8 ∧ ∀ row ∈ grid, row.length = 16) →
      exec (.loadImage grid) s = .next { s with results := s.results ++ [⟨.invalidDimensions, none⟩] }) ∧
    (grid.length = 8 ∧ (∀ row ∈ grid, row.length = 16) →
      ∃ b : PixelRegister,
        exec (.loadImage grid) s = .next { s with
          buf := b, trace := s.trace ++ writeFrameEvents Config.timing b.toList
          clk := some true, din := some true, results := s.results ++ [⟨.ok, none⟩] } ∧
        ∀ r < 8, ∀ c < 16, (grid[r]?.bind fun row => row[c]?) = some (pixel b r c))

/-- R103: the text whose lines, split at line feeds, are 8 of 16 characters sets the buffer, `*` lit and every other
character unlit, and returns its bytes; any other text is rejected; no event. -/
def Obligations.ParsePatternReadsItsLines : Prop :=
  ∀ (s : State) (lines : List Text), Ready s → lines ≠ [] → (∀ line ∈ lines, '\n' ∉ line) →
    (¬(lines.length = 8 ∧ ∀ line ∈ lines, line.length = 16) →
      exec (.parsePattern (['\n'].intercalate lines)) s =
        .next { s with results := s.results ++ [⟨.invalidDimensions, some []⟩] }) ∧
    (lines.length = 8 ∧ (∀ line ∈ lines, line.length = 16) →
      ∃ b : PixelRegister,
        exec (.parsePattern (['\n'].intercalate lines)) s =
          .next { s with buf := b, results := s.results ++ [⟨.ok, some b.toList⟩] } ∧
        ∀ r < 8, ∀ c < 16, (pixel b r c = true ↔ (lines[r]?.bind fun l => l[c]?) = some '*'))

/-- R105: DRAW_RECT sets exactly the pixels of the rectangle that lie in the grid. -/
def Obligations.DrawRectFillsTheRectangle : Prop :=
  ∀ (s : State) (x y w h : Int) (on : Bool), Ready s →
    ∃ b : PixelRegister,
      exec (.drawRect x y w h on) s = .next { s with buf := b, results := s.results ++ [⟨.ok, none⟩] } ∧
      ∀ r < 8, ∀ c < 16, pixel b r c =
        if y ≤ (r : Int) ∧ (r : Int) < y + h ∧ x ≤ (c : Int) ∧ (c : Int) < x + w then on else pixel s.buf r c

/-- R105: filling the rectangle at once has the effect of the loop of R105, `setbit` over its columns and rows. -/
def Obligations.DrawRectIsItsLoop : Prop :=
  ∀ (x y w h : Int) (on : Bool) (b : PixelRegister),
    setWhere (inRect x y w h) on b = rectLoop x y h.toNat on w.toNat b

/-- R106: DRAW_LINE lights exactly the pixels of a horizontal or vertical segment that lie in the grid, its endpoints in
either order; a diagonal is `Unsupported` and changes nothing. -/
def Obligations.DrawLineLightsTheSegment : Prop :=
  ∀ (s : State) (r0 c0 r1 c1 : Int), Ready s →
    (r0 ≠ r1 ∧ c0 ≠ c1 →
      exec (.drawLine r0 c0 r1 c1) s = .next { s with results := s.results ++ [⟨.unsupported, none⟩] }) ∧
    (r0 = r1 ∨ c0 = c1 →
      ∃ b : PixelRegister,
        exec (.drawLine r0 c0 r1 c1) s = .next { s with buf := b, results := s.results ++ [⟨.ok, none⟩] } ∧
        ∀ r < 8, ∀ c < 16, pixel b r c =
          if min r0 r1 ≤ (r : Int) ∧ (r : Int) ≤ max r0 r1 ∧ min c0 c1 ≤ (c : Int) ∧ (c : Int) ≤ max c0 c1 then true
          else pixel s.buf r c)

/-- R106: lighting the segment at once has the effect of the loops of R106. -/
def Obligations.DrawLineIsItsLoop : Prop :=
  ∀ (r0 c0 r1 c1 : Int) (b : PixelRegister), r0 = r1 ∨ c0 = c1 →
    setWhere (onSegment r0 c0 r1 c1) true b = lineLoop r0 c0 r1 c1 b

/-- R107: READ_BUFFER answers the sixteen bytes and changes nothing. -/
def Obligations.ReadBufferAnswersTheBytes : Prop :=
  ∀ s : State, Ready s →
    exec .readBuffer s = .next { s with results := s.results ++ [⟨.ok, some s.buf.toList⟩] }

/-- R104, which the spec derives from R102 and R103: loading the grid that a buffer shows leaves that buffer. -/
def Obligations.LoadedGridOfABufferIsTheBuffer : Prop :=
  ∀ (s : State) (b : PixelRegister), Ready s → ∃ t, exec (.loadImage (gridOf b)) s = .next t ∧ t.buf = b

/-! ## The transpose engine -/

/-- R109: bit r of output column c is bit `7 - c mod 8` of element `r*n + c/8`, which the length check keeps inside the
pattern; a negative count and a short pattern are rejected, in that order. -/
def Obligations.TransposeMovesEachBit : Prop :=
  ∀ (s : State) (pattern : List Int) (n : Int), Ready s →
    (n < 0 → exec (.transpose pattern n) s = .next { s with results := s.results ++ [⟨.outOfRange, some []⟩] }) ∧
    (0 ≤ n → (pattern.length : Int) < (if n = 0 then 0 else 7 * n + (n - 1) / 8 + 1) →
      exec (.transpose pattern n) s = .next { s with results := s.results ++ [⟨.invalidDimensions, some []⟩] }) ∧
    (0 ≤ n → (if n = 0 then 0 else 7 * n + (n - 1) / 8 + 1) ≤ (pattern.length : Int) →
      ∃ out : List Byte,
        exec (.transpose pattern n) s = .next { s with results := s.results ++ [⟨.ok, some out⟩] } ∧
        (out.length : Int) = n ∧
        ∀ r < 8, ∀ c < out.length, ∃ (p : Int) (v column : Byte),
          pattern[r * out.length + c / 8]? = some p ∧ (v.toNat : Int) = p % 256 ∧ out[c]? = some column ∧
          column.getLsbD r = v.getLsbD (7 - c % 8))

/-- R112, which the spec derives from R109: TRANSPOSE of `untranspose` of n column bytes answers those bytes, and
`untranspose` of what TRANSPOSE answers is the pattern, on the patterns of 8n bytes whose unused bits are 0. -/
def Obligations.TransposeRoundTrip : Prop :=
  ∀ n : Nat, 1 ≤ n →
    (∀ out : List Byte, out.length = n →
      transposeColumns ((untranspose out n).map fun v => (v.toNat : Int)) n = out ∧
      ∀ s : State, Ready s → exec (.transpose ((untranspose out n).map fun v => (v.toNat : Int)) n) s =
        .next { s with results := s.results ++ [⟨.ok, some out⟩] }) ∧
    (∀ p : List Byte, p.length = 8 * n →
      (∀ i < 8 * n, ∀ b < 8, n ≤ 8 * (i % n) + (7 - b) → (p.getD i 0).getLsbD b = false) →
      ∃ out : List Byte, out = transposeColumns (p.map fun v => (v.toNat : Int)) n ∧ out.length = n ∧
        untranspose out n = p ∧
        ∀ s : State, Ready s → exec (.transpose (p.map fun v => (v.toNat : Int)) n) s =
          .next { s with results := s.results ++ [⟨.ok, some out⟩] })

/-- R113, which the spec derives from R109 and R110: the 8 columns that TRANSPOSE answers for n = 8 are too short a
pattern for a second TRANSPOSE with n = 8. -/
def Obligations.TransposeIsNotItsOwnInverse : Prop :=
  ∀ (s : State) (pattern : List Int), Ready s → 57 ≤ pattern.length →
    ∃ (t : State) (out : List Byte), exec (.transpose pattern 8) s = .next t ∧
      t = { s with results := s.results ++ [⟨.ok, some out⟩] } ∧ out.length = 8 ∧
      exec (.transpose (out.map fun v => (v.toNat : Int)) 8) t =
        .next { t with results := t.results ++ [⟨.invalidDimensions, some []⟩] }

/-- R114, which the spec derives from R109 and R102: TRANSPOSE of a grid's row-major pattern answers the bytes that
LOAD_IMAGE writes for the grid. -/
def Obligations.TransposeAgreesWithLoadImage : Prop :=
  ∀ (s : State) (grid : List (List Bool)), Ready s → grid.length = 8 → (∀ row ∈ grid, row.length = 16) →
    ∃ t u : State, exec (.loadImage grid) s = .next t ∧
      exec (.transpose ((rowMajorOf grid).map fun v => (v.toNat : Int)) 16) s = .next u ∧
      u.results = s.results ++ [⟨.ok, some t.buf.toList⟩]

/-! ## The scroll -/

/-- R9, R10 and R115's `glyphOf`: the constraints on the font, the case folding, and the space glyph as the default. -/
def Obligations.GlyphLookup : Prop :=
  (Config.font ' ').isSome = true ∧ (Config.font 'H').map List.length = some 5 ∧
  (Config.font 'I').map List.length = some 5 ∧
  (∀ (font : Font) (fold : Bool) (ch : Char) (g : Glyph), ¬(fold = true ∧ 97 ≤ ch.toNat ∧ ch.toNat ≤ 122) →
    font ch = some g → glyphOf font fold ch = g) ∧
  (∀ (font : Font) (ch upper : Char) (g : Glyph), 97 ≤ ch.toNat → ch.toNat ≤ 122 → upper.toNat + 32 = ch.toNat →
    font upper = some g → glyphOf font true ch = g) ∧
  (∀ (font : Font) (fold : Bool) (ch : Char) (space : Glyph), ¬(fold = true ∧ 97 ≤ ch.toNat ∧ ch.toNat ≤ 122) →
    font ch = none → font ' ' = some space → glyphOf font fold ch = space) ∧
  (∀ (font : Font) (ch upper : Char) (space : Glyph), 97 ≤ ch.toNat → ch.toNat ≤ 122 → upper.toNat + 32 = ch.toNat →
    font upper = none → font ' ' = some space → glyphOf font true ch = space)

/-- R115: the pad, the glyphs with one zero column between two of them, the pad; nothing else changes. The glyph of a
character is the font's for the character, folded to upper case where case folding is on, or the space glyph. -/
def Obligations.ScrollBitmapIsPaddedText : Prop :=
  ∀ (s : State) (text : Text) (glyph : Char → Glyph), Ready s →
    (∀ ch : Char, glyph ch =
      match Config.font (if Config.foldCase = true ∧ 'a' ≤ ch ∧ ch ≤ 'z' then Char.ofNat (ch.toNat - 32) else ch) with
      | some columns => columns
      | none => (Config.font ' ').getD []) →
    exec (.buildScrollBitmap text) s = .next { s with
      results := s.results ++ [⟨.ok, some (List.replicate 16 0 ++
        ((text.map glyph).intersperse [0]).flatten ++ List.replicate 16 0)⟩] }

/-- R116, which the spec derives from R115: the length of the bitmap, for every font; 43 for "HI" with the machine's. -/
def Obligations.ScrollBitmapLength : Prop :=
  (∀ (font : Font) (fold : Bool) (text : Text),
    (scrollBitmap font fold text).length =
      32 + (text.map fun ch => (glyphOf font fold ch).length).sum + (text.length - 1)) ∧
  ∀ fold : Bool, (scrollBitmap Config.font fold ['H', 'I']).length = 43

/-- R117: the acceptance of a left and of a right scroll, and the rejections. -/
def Obligations.ScrollTextIsAccepted : Prop :=
  ∀ (s : State) (text : Text) (speed dir : Int), Ready s →
    (speed < 0 ∨ (dir ≠ 0 ∧ dir ≠ 1) →
      exec (.scrollText text speed dir) s = .next { s with results := s.results ++ [⟨.outOfRange, none⟩] }) ∧
    (0 ≤ speed → dir = 0 ∨ dir = 1 →
      ∃ bm : List Byte, bm = scrollBitmap Config.font Config.foldCase text ∧
        exec (.scrollText text speed dir) s = .next { s with
          mode := .scrolling, scrBitmap := bm, scrSpeed := speed.toNat
          scrOff := if dir = 0 then 0 else bm.length - 16
          scrLast := if dir = 0 then bm.length - 16 else -16
          scrStep := if dir = 0 then .forward else .backward })

/-- R118 and R119: a tick shows the window, renders it, waits, and ends the scroll at the final offset with `Ok`, or
moves the offset on; without a scroll it is not enabled. -/
def Obligations.ScrollTickShowsOneWindow : Prop :=
  ∀ s : State, s.fault = none →
    (s.mode = .idle → exec .scrollTick s = .fault .tickNotEnabled) ∧
    (s.mode = .scrolling → ∃ b : PixelRegister,
      (∀ i : Nat, i < 16 → b.toList[i]? =
        some (if 0 ≤ s.scrOff + (i : Int) then (s.scrBitmap[(s.scrOff + (i : Int)).toNat]?).getD 0 else 0)) ∧
      (s.scrOff = s.scrLast → exec .scrollTick s = .next { s with
        buf := b, trace := s.trace ++ writeFrameEvents Config.timing b.toList ++ [.millis s.scrSpeed]
        clk := some true, din := some true, mode := .idle, results := s.results ++ [⟨.ok, none⟩] }) ∧
      (s.scrOff ≠ s.scrLast → exec .scrollTick s = .next { s with
        buf := b, trace := s.trace ++ writeFrameEvents Config.timing b.toList ++ [.millis s.scrSpeed]
        clk := some true, din := some true
        scrOff := s.scrOff + (match s.scrStep with | .forward => 1 | .backward => -1) }))

/-- R120, which the spec derives from R117 and R118: an accepted scroll runs `L - 15` ticks to the left or `L + 1` to the
right and no fewer, sends one window per offset, ends `Idle` with a zero buffer, and answers `Ok`. That no request comes
between is the empty list of the host's turns, log entry 2; that the scroll registers keep their last values in `Idle` is
log entry 17. -/
def Obligations.ScrollRunsToItsEnd : Prop :=
  ∀ (s : State) (text : Text) (speed dir : Int), Ready s → s.host = [] → 0 ≤ speed → dir = 0 ∨ dir = 1 →
    ∃ (s0 : State) (bm : List Byte) (n : Nat) (step : ScrollStep) (first last : Int),
      exec (.scrollText text speed dir) s = .next s0 ∧ bm = scrollBitmap Config.font Config.foldCase text ∧
      ((dir = 0 ∧ n = bm.length - 15 ∧ step = .forward ∧ first = 0 ∧ last = bm.length - 16) ∨
        (dir = 1 ∧ n = bm.length + 1 ∧ step = .backward ∧ first = bm.length - 16 ∧ last = -16)) ∧
      (∀ k < n, ∃ t, Host.Core.run Sys2Proof.core k s0 = .next t ∧ t.mode = .scrolling) ∧
      Host.Core.run Sys2Proof.core n s0 = .next { s0 with
        mode := .idle, buf := Vector.replicate 16 0, scrOff := last, clk := some true, din := some true
        trace := s.trace ++ scrollEvents bm speed.toNat step first n
        results := s.results ++ [⟨.ok, none⟩] }

/-- R154, which the spec derives from R153 and R120: the least time of so many ticks. -/
def Obligations.ScrollLeastTime : Prop :=
  ∀ (bm : List Byte) (speed : Nat) (step : ScrollStep) (off : Int) (n : Nat),
    minimumMicros (scrollEvents bm speed step off n) = n * (620 + 1000 * speed) ∧
    (scrollEvents bm speed step off n).length = 794 * n

/-! ## Rules about the whole block -/

/-- R36 and R141: what power-on reset leaves, with ⊥ as the spec's views of the registers show it. -/
def Obligations.PowerOnReset : Prop :=
  State.reset.initialized = false ∧ State.reset.pins = none ∧ State.reset.pixelRegister = none ∧
  State.reset.clk = none ∧ State.reset.din = none ∧ State.reset.mode = .idle ∧ State.reset.scroll = none ∧
  State.reset.fault = none ∧ State.reset.trace = []

/-- No step depends on a register that holds no value: two states that differ only in such registers have outcomes that
differ only in such registers (R28, R36). So the values of log entry 1 show nowhere. -/
def Obligations.StepIgnoresUnsetRegisters : Prop :=
  ∀ s s' : State, SameButUnset s s' → SameOutcome (step s) (step s')

/-- R31: the trace only grows at its end, by an instruction and by a step. -/
def Obligations.TraceIsAppendOnly : Prop :=
  (∀ (i : Instr) (s t : State), exec i s = .next t → ∃ es, t.trace = s.trace ++ es) ∧
  (∀ s t : State, step s = .next t → ∃ es, t.trace = s.trace ++ es)

/-- The column "written by" of R21's table: which instruction may change which register. -/
def Obligations.RegistersAreWrittenAsTabled : Prop :=
  ∀ (i : Instr) (s t : State), exec i s = .next t →
    (t.buf ≠ s.buf → (∃ a b, i = .init a b) ∨ (∃ a b c, i = .setPixel a b c) ∨ i = .clear ∨ (∃ g, i = .loadImage g) ∨
      (∃ x, i = .parsePattern x) ∨ (∃ a b c d e, i = .drawRect a b c d e) ∨ (∃ a b c d, i = .drawLine a b c d) ∨
      i = .scrollTick) ∧
    (t.initialized ≠ s.initialized ∨ t.clkPin ≠ s.clkPin ∨ t.dinPin ≠ s.dinPin → ∃ a b, i = .init a b) ∧
    (t.mode ≠ s.mode ∨ t.scrOff ≠ s.scrOff → (∃ a b c, i = .scrollText a b c) ∨ i = .scrollTick) ∧
    (t.scrBitmap ≠ s.scrBitmap ∨ t.scrLast ≠ s.scrLast ∨ t.scrStep ≠ s.scrStep ∨ t.scrSpeed ≠ s.scrSpeed →
      ∃ a b c, i = .scrollText a b c) ∧
    (t.fault ≠ s.fault → encodeRequest i ≠ none)

/-- R94, R62 and R68, as the spec derives them: what a request sends is whole frames of the block's output language, and
READ_BUFFER, TRANSPOSE, BUILD_SCROLL_BITMAP, SET_PIXEL, DRAW_RECT, DRAW_LINE, PARSE_PATTERN, INIT and the acceptance of a
scroll send none (R50, R117). -/
def Obligations.RequestsSendWholeFrames : Prop :=
  ∀ (i : Instr) (r : Request) (s t : State), encodeRequest i = some r → exec i s = .next t →
    ∃ fs : List Frame, t.trace = s.trace ++ fs.flatMap (frameEvents Config.timing) ∧
      (∀ f ∈ fs, (decodeFrame f).isSome = true) ∧
      (fs ≠ [] → (∃ d, i = .writeFrame d) ∨ i = .turnOn ∨ i = .turnOff ∨ (∃ l, i = .brightness l) ∨ i = .render ∨
        i = .clear ∨ ∃ g, i = .loadImage g)

/-- R148, as the spec derives it: every render ends with the command frame `0x88`. -/
def Obligations.RendersEndWithDisplayOn : Prop :=
  ∀ (s : State) (i : Instr), s.fault = none →
    ((i = .render ∨ i = .clear ∨ (∃ d, i = .writeFrame d ∧ d.length = 16) ∨
        (∃ g, i = .loadImage g ∧ g.length = 8 ∧ ∀ row ∈ g, row.length = 16)) ∧ Ready s) ∨
      (i = .scrollTick ∧ s.mode = .scrolling) →
    ∃ (t : State) (fs : List Frame) (delays : List Event), exec i s = .next t ∧
      t.trace = s.trace ++ (fs ++ [[0x88]]).flatMap (frameEvents Config.timing) ++ delays ∧
      (delays = [] ∨ ∃ n, delays = [.millis n])

/-- R73: after a render the display's columns are the bytes of the buffer, whatever the session sent before, in every
state in which no frame is open. What the reading takes from R73 is log entry 15. -/
def Obligations.DisplayShowsTheRenderedBuffer : Prop :=
  ∀ s : State, Ready s → SessionsAgree s → FramesClosed s →
    ∃ t, exec .render s = .next t ∧ displayColumns t.sessionTrace = some s.buf.toList

/-- R50: a second identical request leaves the state as the first left it, but for the trace, the answers and the session
marks. It is said of the requests that run to their end in one step. -/
def Obligations.RequestsAreIdempotentOnTheState : Prop :=
  ∀ (i : Instr) (s t : State), hostRequest i = true → i.wellFormed = true → (∀ a b c, i ≠ .scrollText a b c) →
    exec i s = .next t → t.fault = none →
    ∃ u, exec i t = .next u ∧ u = { t with trace := u.trace, results := u.results, sessions := u.sessions }

/-- Every step keeps the pins apart (R24) and the session marks in agreement with the state (R98). -/
def Obligations.StepKeepsPinsAndSessions : Prop :=
  ∀ s t : State, PinsDistinct s → SessionsAgree s → step s = .next t → PinsDistinct t ∧ SessionsAgree t

/-- Every step keeps both lines at rest (R38), as the session's events last drove them (R25), and no frame open (R35). -/
def Obligations.StepKeepsLinesAndFrames : Prop :=
  ∀ s t : State, SessionsAgree s → LinesRest s → LevelsTrack s → FramesClosed s → step s = .next t →
    LinesRest t ∧ LevelsTrack t ∧ FramesClosed t

/-- Every step keeps the registers of a running scroll in their bounds (R28, R117, R118). -/
def Obligations.StepKeepsScrollBounds : Prop :=
  ∀ s t : State, ScrollBounded s → step s = .next t → ScrollBounded t

/-- Power-on reset meets every invariant above, whatever the host will do. -/
def Obligations.ResetMeetsTheInvariants : Prop :=
  ∀ turns : List HostTurn,
    PinsDistinct { State.reset with host := turns } ∧ SessionsAgree { State.reset with host := turns } ∧
    LinesRest { State.reset with host := turns } ∧ LevelsTrack { State.reset with host := turns } ∧
    FramesClosed { State.reset with host := turns } ∧ ScrollBounded { State.reset with host := turns }

/-- R152, as the spec derives it: a step drives no pin but the two of the running session, and INIT drives none, so the
pins of an earlier session keep their last levels. -/
def Obligations.OtherPinsKeepTheirLevels : Prop :=
  (∀ (s t : State) (p : PinId), SessionsAgree s → step s = .next t → p ≠ s.clkPin → p ≠ s.dinPin →
    t.pinLevel p = s.pinLevel p) ∧
  (∀ (s t : State) (c d p : PinId), SessionsAgree s → exec (.init c d) s = .next t → t.pinLevel p = s.pinLevel p)
end

