-- ==== Sys2Proof/Laws/State.lean ====
section
/-! SUPPORT. The fields of the state after each named update, one lemma per field per update, so that no later proof
unfolds a record update. -/

namespace Sys2Proof.Machine

/-! ### Driving the lines -/

@[simp] theorem State.emit_buf (s : State) (es : List Event) :
    (s.emit es).buf = s.buf := rfl

@[simp] theorem State.emit_initialized (s : State) (es : List Event) :
    (s.emit es).initialized = s.initialized := rfl

@[simp] theorem State.emit_clkPin (s : State) (es : List Event) :
    (s.emit es).clkPin = s.clkPin := rfl

@[simp] theorem State.emit_dinPin (s : State) (es : List Event) :
    (s.emit es).dinPin = s.dinPin := rfl

@[simp] theorem State.emit_clk (s : State) (es : List Event) :
    (s.emit es).clk = lastLevel .clk es s.clk := rfl

@[simp] theorem State.emit_din (s : State) (es : List Event) :
    (s.emit es).din = lastLevel .din es s.din := rfl

@[simp] theorem State.emit_mode (s : State) (es : List Event) :
    (s.emit es).mode = s.mode := rfl

@[simp] theorem State.emit_scrBitmap (s : State) (es : List Event) :
    (s.emit es).scrBitmap = s.scrBitmap := rfl

@[simp] theorem State.emit_scrOff (s : State) (es : List Event) :
    (s.emit es).scrOff = s.scrOff := rfl

@[simp] theorem State.emit_scrLast (s : State) (es : List Event) :
    (s.emit es).scrLast = s.scrLast := rfl

@[simp] theorem State.emit_scrStep (s : State) (es : List Event) :
    (s.emit es).scrStep = s.scrStep := rfl

@[simp] theorem State.emit_scrSpeed (s : State) (es : List Event) :
    (s.emit es).scrSpeed = s.scrSpeed := rfl

@[simp] theorem State.emit_fault (s : State) (es : List Event) :
    (s.emit es).fault = s.fault := rfl

@[simp] theorem State.emit_trace (s : State) (es : List Event) :
    (s.emit es).trace = s.trace ++ es := rfl

@[simp] theorem State.emit_results (s : State) (es : List Event) :
    (s.emit es).results = s.results := rfl

@[simp] theorem State.emit_host (s : State) (es : List Event) :
    (s.emit es).host = s.host := rfl

@[simp] theorem State.emit_sessions (s : State) (es : List Event) :
    (s.emit es).sessions = s.sessions := rfl

/-! ### Answering -/

@[simp] theorem State.respond_buf (s : State) (r : Response) :
    (s.respond r).buf = s.buf := rfl

@[simp] theorem State.respond_initialized (s : State) (r : Response) :
    (s.respond r).initialized = s.initialized := rfl

@[simp] theorem State.respond_clkPin (s : State) (r : Response) :
    (s.respond r).clkPin = s.clkPin := rfl

@[simp] theorem State.respond_dinPin (s : State) (r : Response) :
    (s.respond r).dinPin = s.dinPin := rfl

@[simp] theorem State.respond_clk (s : State) (r : Response) :
    (s.respond r).clk = s.clk := rfl

@[simp] theorem State.respond_din (s : State) (r : Response) :
    (s.respond r).din = s.din := rfl

@[simp] theorem State.respond_mode (s : State) (r : Response) :
    (s.respond r).mode = s.mode := rfl

@[simp] theorem State.respond_scrBitmap (s : State) (r : Response) :
    (s.respond r).scrBitmap = s.scrBitmap := rfl

@[simp] theorem State.respond_scrOff (s : State) (r : Response) :
    (s.respond r).scrOff = s.scrOff := rfl

@[simp] theorem State.respond_scrLast (s : State) (r : Response) :
    (s.respond r).scrLast = s.scrLast := rfl

@[simp] theorem State.respond_scrStep (s : State) (r : Response) :
    (s.respond r).scrStep = s.scrStep := rfl

@[simp] theorem State.respond_scrSpeed (s : State) (r : Response) :
    (s.respond r).scrSpeed = s.scrSpeed := rfl

@[simp] theorem State.respond_fault (s : State) (r : Response) :
    (s.respond r).fault = s.fault := rfl

@[simp] theorem State.respond_trace (s : State) (r : Response) :
    (s.respond r).trace = s.trace := rfl

@[simp] theorem State.respond_results (s : State) (r : Response) :
    (s.respond r).results = s.results ++ [r] := rfl

@[simp] theorem State.respond_host (s : State) (r : Response) :
    (s.respond r).host = s.host := rfl

@[simp] theorem State.respond_sessions (s : State) (r : Response) :
    (s.respond r).sessions = s.sessions := rfl

/-! ### Recording a fault -/

@[simp] theorem State.raise_buf (s : State) (k : FaultKind) (r : Request) :
    (s.raise k r).buf = s.buf := rfl

@[simp] theorem State.raise_initialized (s : State) (k : FaultKind) (r : Request) :
    (s.raise k r).initialized = s.initialized := rfl

@[simp] theorem State.raise_clkPin (s : State) (k : FaultKind) (r : Request) :
    (s.raise k r).clkPin = s.clkPin := rfl

@[simp] theorem State.raise_dinPin (s : State) (k : FaultKind) (r : Request) :
    (s.raise k r).dinPin = s.dinPin := rfl

@[simp] theorem State.raise_clk (s : State) (k : FaultKind) (r : Request) :
    (s.raise k r).clk = s.clk := rfl

@[simp] theorem State.raise_din (s : State) (k : FaultKind) (r : Request) :
    (s.raise k r).din = s.din := rfl

@[simp] theorem State.raise_mode (s : State) (k : FaultKind) (r : Request) :
    (s.raise k r).mode = s.mode := rfl

@[simp] theorem State.raise_scrBitmap (s : State) (k : FaultKind) (r : Request) :
    (s.raise k r).scrBitmap = s.scrBitmap := rfl

@[simp] theorem State.raise_scrOff (s : State) (k : FaultKind) (r : Request) :
    (s.raise k r).scrOff = s.scrOff := rfl

@[simp] theorem State.raise_scrLast (s : State) (k : FaultKind) (r : Request) :
    (s.raise k r).scrLast = s.scrLast := rfl

@[simp] theorem State.raise_scrStep (s : State) (k : FaultKind) (r : Request) :
    (s.raise k r).scrStep = s.scrStep := rfl

@[simp] theorem State.raise_scrSpeed (s : State) (k : FaultKind) (r : Request) :
    (s.raise k r).scrSpeed = s.scrSpeed := rfl

@[simp] theorem State.raise_fault (s : State) (k : FaultKind) (r : Request) :
    (s.raise k r).fault = some ⟨k, r⟩ := rfl

@[simp] theorem State.raise_trace (s : State) (k : FaultKind) (r : Request) :
    (s.raise k r).trace = s.trace := rfl

@[simp] theorem State.raise_results (s : State) (k : FaultKind) (r : Request) :
    (s.raise k r).results = s.results := rfl

@[simp] theorem State.raise_host (s : State) (k : FaultKind) (r : Request) :
    (s.raise k r).host = s.host := rfl

@[simp] theorem State.raise_sessions (s : State) (k : FaultKind) (r : Request) :
    (s.raise k r).sessions = s.sessions := rfl

/-! ### Beginning a session -/

@[simp] theorem State.beginSession_buf (s : State) (c d : PinId) :
    (s.beginSession c d).buf = clearedBuffer := rfl

@[simp] theorem State.beginSession_initialized (s : State) (c d : PinId) :
    (s.beginSession c d).initialized = true := rfl

@[simp] theorem State.beginSession_clkPin (s : State) (c d : PinId) :
    (s.beginSession c d).clkPin = c := rfl

@[simp] theorem State.beginSession_dinPin (s : State) (c d : PinId) :
    (s.beginSession c d).dinPin = d := rfl

@[simp] theorem State.beginSession_clk (s : State) (c d : PinId) :
    (s.beginSession c d).clk = none := rfl

@[simp] theorem State.beginSession_din (s : State) (c d : PinId) :
    (s.beginSession c d).din = none := rfl

@[simp] theorem State.beginSession_mode (s : State) (c d : PinId) :
    (s.beginSession c d).mode = s.mode := rfl

@[simp] theorem State.beginSession_scrBitmap (s : State) (c d : PinId) :
    (s.beginSession c d).scrBitmap = s.scrBitmap := rfl

@[simp] theorem State.beginSession_scrOff (s : State) (c d : PinId) :
    (s.beginSession c d).scrOff = s.scrOff := rfl

@[simp] theorem State.beginSession_scrLast (s : State) (c d : PinId) :
    (s.beginSession c d).scrLast = s.scrLast := rfl

@[simp] theorem State.beginSession_scrStep (s : State) (c d : PinId) :
    (s.beginSession c d).scrStep = s.scrStep := rfl

@[simp] theorem State.beginSession_scrSpeed (s : State) (c d : PinId) :
    (s.beginSession c d).scrSpeed = s.scrSpeed := rfl

@[simp] theorem State.beginSession_fault (s : State) (c d : PinId) :
    (s.beginSession c d).fault = s.fault := rfl

@[simp] theorem State.beginSession_trace (s : State) (c d : PinId) :
    (s.beginSession c d).trace = s.trace := rfl

@[simp] theorem State.beginSession_results (s : State) (c d : PinId) :
    (s.beginSession c d).results = s.results := rfl

@[simp] theorem State.beginSession_host (s : State) (c d : PinId) :
    (s.beginSession c d).host = s.host := rfl

@[simp] theorem State.beginSession_sessions (s : State) (c d : PinId) :
    (s.beginSession c d).sessions = s.sessions ++ [⟨c, d, s.trace.length⟩] := rfl

/-! ### Accepting a scroll -/

@[simp] theorem State.acceptScroll_buf (s : State) (bm : List Byte) (v : Nat) (st : ScrollStep) :
    (s.acceptScroll bm v st).buf = s.buf := rfl

@[simp] theorem State.acceptScroll_initialized (s : State) (bm : List Byte) (v : Nat) (st : ScrollStep) :
    (s.acceptScroll bm v st).initialized = s.initialized := rfl

@[simp] theorem State.acceptScroll_clkPin (s : State) (bm : List Byte) (v : Nat) (st : ScrollStep) :
    (s.acceptScroll bm v st).clkPin = s.clkPin := rfl

@[simp] theorem State.acceptScroll_dinPin (s : State) (bm : List Byte) (v : Nat) (st : ScrollStep) :
    (s.acceptScroll bm v st).dinPin = s.dinPin := rfl

@[simp] theorem State.acceptScroll_clk (s : State) (bm : List Byte) (v : Nat) (st : ScrollStep) :
    (s.acceptScroll bm v st).clk = s.clk := rfl

@[simp] theorem State.acceptScroll_din (s : State) (bm : List Byte) (v : Nat) (st : ScrollStep) :
    (s.acceptScroll bm v st).din = s.din := rfl

@[simp] theorem State.acceptScroll_mode (s : State) (bm : List Byte) (v : Nat) (st : ScrollStep) :
    (s.acceptScroll bm v st).mode = .scrolling := rfl

@[simp] theorem State.acceptScroll_scrBitmap (s : State) (bm : List Byte) (v : Nat) (st : ScrollStep) :
    (s.acceptScroll bm v st).scrBitmap = bm := rfl

@[simp] theorem State.acceptScroll_scrOff (s : State) (bm : List Byte) (v : Nat) (st : ScrollStep) :
    (s.acceptScroll bm v st).scrOff = firstOffset st bm.length := rfl

@[simp] theorem State.acceptScroll_scrLast (s : State) (bm : List Byte) (v : Nat) (st : ScrollStep) :
    (s.acceptScroll bm v st).scrLast = finalOffset st bm.length := rfl

@[simp] theorem State.acceptScroll_scrStep (s : State) (bm : List Byte) (v : Nat) (st : ScrollStep) :
    (s.acceptScroll bm v st).scrStep = st := rfl

@[simp] theorem State.acceptScroll_scrSpeed (s : State) (bm : List Byte) (v : Nat) (st : ScrollStep) :
    (s.acceptScroll bm v st).scrSpeed = v := rfl

@[simp] theorem State.acceptScroll_fault (s : State) (bm : List Byte) (v : Nat) (st : ScrollStep) :
    (s.acceptScroll bm v st).fault = s.fault := rfl

@[simp] theorem State.acceptScroll_trace (s : State) (bm : List Byte) (v : Nat) (st : ScrollStep) :
    (s.acceptScroll bm v st).trace = s.trace := rfl

@[simp] theorem State.acceptScroll_results (s : State) (bm : List Byte) (v : Nat) (st : ScrollStep) :
    (s.acceptScroll bm v st).results = s.results := rfl

@[simp] theorem State.acceptScroll_host (s : State) (bm : List Byte) (v : Nat) (st : ScrollStep) :
    (s.acceptScroll bm v st).host = s.host := rfl

@[simp] theorem State.acceptScroll_sessions (s : State) (bm : List Byte) (v : Nat) (st : ScrollStep) :
    (s.acceptScroll bm v st).sessions = s.sessions := rfl

/-! ### Rendering -/

@[simp] theorem State.render_buf (s : State)  :
    (s.render).buf = s.buf := by
  simp only [State.render, State.emit_buf]

@[simp] theorem State.render_initialized (s : State)  :
    (s.render).initialized = s.initialized := by
  simp only [State.render, State.emit_initialized]

@[simp] theorem State.render_clkPin (s : State)  :
    (s.render).clkPin = s.clkPin := by
  simp only [State.render, State.emit_clkPin]

@[simp] theorem State.render_dinPin (s : State)  :
    (s.render).dinPin = s.dinPin := by
  simp only [State.render, State.emit_dinPin]

@[simp] theorem State.render_clk (s : State)  :
    (s.render).clk = lastLevel .clk (renderEvents s.buf) s.clk := by
  simp only [State.render, State.emit_clk]

@[simp] theorem State.render_din (s : State)  :
    (s.render).din = lastLevel .din (renderEvents s.buf) s.din := by
  simp only [State.render, State.emit_din]

@[simp] theorem State.render_mode (s : State)  :
    (s.render).mode = s.mode := by
  simp only [State.render, State.emit_mode]

@[simp] theorem State.render_scrBitmap (s : State)  :
    (s.render).scrBitmap = s.scrBitmap := by
  simp only [State.render, State.emit_scrBitmap]

@[simp] theorem State.render_scrOff (s : State)  :
    (s.render).scrOff = s.scrOff := by
  simp only [State.render, State.emit_scrOff]

@[simp] theorem State.render_scrLast (s : State)  :
    (s.render).scrLast = s.scrLast := by
  simp only [State.render, State.emit_scrLast]

@[simp] theorem State.render_scrStep (s : State)  :
    (s.render).scrStep = s.scrStep := by
  simp only [State.render, State.emit_scrStep]

@[simp] theorem State.render_scrSpeed (s : State)  :
    (s.render).scrSpeed = s.scrSpeed := by
  simp only [State.render, State.emit_scrSpeed]

@[simp] theorem State.render_fault (s : State)  :
    (s.render).fault = s.fault := by
  simp only [State.render, State.emit_fault]

@[simp] theorem State.render_trace (s : State)  :
    (s.render).trace = s.trace ++ renderEvents s.buf := by
  simp only [State.render, State.emit_trace]

@[simp] theorem State.render_results (s : State)  :
    (s.render).results = s.results := by
  simp only [State.render, State.emit_results]

@[simp] theorem State.render_host (s : State)  :
    (s.render).host = s.host := by
  simp only [State.render, State.emit_host]

@[simp] theorem State.render_sessions (s : State)  :
    (s.render).sessions = s.sessions := by
  simp only [State.render, State.emit_sessions]

/-! ### The frame of a tick -/

@[simp] theorem State.scrollFrame_buf (s : State)  :
    (s.scrollFrame).buf = scrollWindow s.scrBitmap s.scrOff := by
  simp only [State.scrollFrame, State.emit_buf, State.render_buf]

@[simp] theorem State.scrollFrame_initialized (s : State)  :
    (s.scrollFrame).initialized = s.initialized := by
  simp only [State.scrollFrame, State.emit_initialized, State.render_initialized]

@[simp] theorem State.scrollFrame_clkPin (s : State)  :
    (s.scrollFrame).clkPin = s.clkPin := by
  simp only [State.scrollFrame, State.emit_clkPin, State.render_clkPin]

@[simp] theorem State.scrollFrame_dinPin (s : State)  :
    (s.scrollFrame).dinPin = s.dinPin := by
  simp only [State.scrollFrame, State.emit_dinPin, State.render_dinPin]

@[simp] theorem State.scrollFrame_clk (s : State)  :
    (s.scrollFrame).clk = lastLevel .clk (renderEvents (scrollWindow s.scrBitmap s.scrOff)) s.clk := by
  simp [State.scrollFrame, lastLevel]

@[simp] theorem State.scrollFrame_din (s : State)  :
    (s.scrollFrame).din = lastLevel .din (renderEvents (scrollWindow s.scrBitmap s.scrOff)) s.din := by
  simp [State.scrollFrame, lastLevel]

@[simp] theorem State.scrollFrame_mode (s : State)  :
    (s.scrollFrame).mode = s.mode := by
  simp only [State.scrollFrame, State.emit_mode, State.render_mode]

@[simp] theorem State.scrollFrame_scrBitmap (s : State)  :
    (s.scrollFrame).scrBitmap = s.scrBitmap := by
  simp only [State.scrollFrame, State.emit_scrBitmap, State.render_scrBitmap]

@[simp] theorem State.scrollFrame_scrOff (s : State)  :
    (s.scrollFrame).scrOff = s.scrOff := by
  simp only [State.scrollFrame, State.emit_scrOff, State.render_scrOff]

@[simp] theorem State.scrollFrame_scrLast (s : State)  :
    (s.scrollFrame).scrLast = s.scrLast := by
  simp only [State.scrollFrame, State.emit_scrLast, State.render_scrLast]

@[simp] theorem State.scrollFrame_scrStep (s : State)  :
    (s.scrollFrame).scrStep = s.scrStep := by
  simp only [State.scrollFrame, State.emit_scrStep, State.render_scrStep]

@[simp] theorem State.scrollFrame_scrSpeed (s : State)  :
    (s.scrollFrame).scrSpeed = s.scrSpeed := by
  simp only [State.scrollFrame, State.emit_scrSpeed, State.render_scrSpeed]

@[simp] theorem State.scrollFrame_fault (s : State)  :
    (s.scrollFrame).fault = s.fault := by
  simp only [State.scrollFrame, State.emit_fault, State.render_fault]

@[simp] theorem State.scrollFrame_trace (s : State)  :
    (s.scrollFrame).trace = s.trace ++ renderEvents (scrollWindow s.scrBitmap s.scrOff) ++ [.millis s.scrSpeed] := by
  simp only [State.scrollFrame, State.emit_trace, State.render_trace]

@[simp] theorem State.scrollFrame_results (s : State)  :
    (s.scrollFrame).results = s.results := by
  simp only [State.scrollFrame, State.emit_results, State.render_results]

@[simp] theorem State.scrollFrame_host (s : State)  :
    (s.scrollFrame).host = s.host := by
  simp only [State.scrollFrame, State.emit_host, State.render_host]

@[simp] theorem State.scrollFrame_sessions (s : State)  :
    (s.scrollFrame).sessions = s.sessions := by
  simp only [State.scrollFrame, State.emit_sessions, State.render_sessions]

/-! ### The offset of a tick -/

@[simp] theorem State.scrollAdvance_buf (s : State)  :
    (s.scrollAdvance).buf = s.buf := by
  unfold State.scrollAdvance; split <;> rfl

@[simp] theorem State.scrollAdvance_initialized (s : State)  :
    (s.scrollAdvance).initialized = s.initialized := by
  unfold State.scrollAdvance; split <;> rfl

@[simp] theorem State.scrollAdvance_clkPin (s : State)  :
    (s.scrollAdvance).clkPin = s.clkPin := by
  unfold State.scrollAdvance; split <;> rfl

@[simp] theorem State.scrollAdvance_dinPin (s : State)  :
    (s.scrollAdvance).dinPin = s.dinPin := by
  unfold State.scrollAdvance; split <;> rfl

@[simp] theorem State.scrollAdvance_clk (s : State)  :
    (s.scrollAdvance).clk = s.clk := by
  unfold State.scrollAdvance; split <;> rfl

@[simp] theorem State.scrollAdvance_din (s : State)  :
    (s.scrollAdvance).din = s.din := by
  unfold State.scrollAdvance; split <;> rfl

@[simp] theorem State.scrollAdvance_mode (s : State)  :
    (s.scrollAdvance).mode = if s.scrOff = s.scrLast then .idle else s.mode := by
  unfold State.scrollAdvance; split <;> rfl

@[simp] theorem State.scrollAdvance_scrBitmap (s : State)  :
    (s.scrollAdvance).scrBitmap = s.scrBitmap := by
  unfold State.scrollAdvance; split <;> rfl

@[simp] theorem State.scrollAdvance_scrOff (s : State)  :
    (s.scrollAdvance).scrOff = if s.scrOff = s.scrLast then s.scrOff else s.scrOff + stepInt s.scrStep := by
  unfold State.scrollAdvance; split <;> rfl

@[simp] theorem State.scrollAdvance_scrLast (s : State)  :
    (s.scrollAdvance).scrLast = s.scrLast := by
  unfold State.scrollAdvance; split <;> rfl

@[simp] theorem State.scrollAdvance_scrStep (s : State)  :
    (s.scrollAdvance).scrStep = s.scrStep := by
  unfold State.scrollAdvance; split <;> rfl

@[simp] theorem State.scrollAdvance_scrSpeed (s : State)  :
    (s.scrollAdvance).scrSpeed = s.scrSpeed := by
  unfold State.scrollAdvance; split <;> rfl

@[simp] theorem State.scrollAdvance_fault (s : State)  :
    (s.scrollAdvance).fault = s.fault := by
  unfold State.scrollAdvance; split <;> rfl

@[simp] theorem State.scrollAdvance_trace (s : State)  :
    (s.scrollAdvance).trace = s.trace := by
  unfold State.scrollAdvance; split <;> rfl

@[simp] theorem State.scrollAdvance_results (s : State)  :
    (s.scrollAdvance).results = if s.scrOff = s.scrLast then s.results ++ [⟨.ok, none⟩] else s.results := by
  unfold State.scrollAdvance; split <;> rfl

@[simp] theorem State.scrollAdvance_host (s : State)  :
    (s.scrollAdvance).host = s.host := by
  unfold State.scrollAdvance; split <;> rfl

@[simp] theorem State.scrollAdvance_sessions (s : State)  :
    (s.scrollAdvance).sessions = s.sessions := by
  unfold State.scrollAdvance; split <;> rfl

end Sys2Proof.Machine
end

