-- ==== Sys2Proof/Laws/Bits.lean ====
section
/-! SUPPORT. The bits of bytes and the pixels of the pixel register: what each shared operation of `Machine/Ops.lean` over
them does, said once. -/

namespace Sys2Proof.Machine

/-- The byte with one bit set. -/
theorem oneBit_getLsbD {r k : Nat} (hr : r < 8) (hk : k < 8) : (1#8 <<< r).getLsbD k = decide (k = r) := by
  have h : ∀ r < 8, ∀ k < 8, (1#8 <<< r).getLsbD k = decide (k = r) := by decide
  exact h r hr k hk

/-- The OR of some rows' bits onto a byte: bit k is set if it was, or if row k is among them and set. -/
theorem rowsFold_getLsbD (f : Nat → Bool) {k : Nat} (hk : k < 8) (rows : List Nat) (h : ∀ r ∈ rows, r < 8) (v : Byte) :
    (rows.foldl (fun v r => v ||| (if f r then 1#8 <<< r else 0#8)) v).getLsbD k =
      (v.getLsbD k || (decide (k ∈ rows) && f k)) := by
  induction rows generalizing v with
  | nil => simp
  | cons r rest ih =>
    have hr : r < 8 := h r (by simp)
    rw [List.foldl_cons, ih (fun r' hr' => h r' (by simp [hr'])), BitVec.getLsbD_or]
    by_cases hkr : k = r
    · subst hkr
      cases hf : f k <;> simp [oneBit_getLsbD hk hk]
    · have : (if f r = true then 1#8 <<< r else 0#8).getLsbD k = false := by
        split
        · rw [oneBit_getLsbD hr hk]; simp [hkr]
        · simp
      simp [this, hkr]

/-- Bit r of a byte made of rows is row r. -/
@[simp] theorem byteOfRows_getLsbD (f : Nat → Bool) {r : Nat} (hr : r < 8) : (byteOfRows f).getLsbD r = f r := by
  have h := rowsFold_getLsbD f hr (List.range 8) (fun r hr => List.mem_range.mp hr) 0#8
  simpa [byteOfRows, hr] using h

/-- A byte is its rows. -/
theorem byteOfRows_self (v : Byte) : byteOfRows (fun r => v.getLsbD r) = v :=
  BitVec.eq_of_getLsbD_eq fun i hi => by simp [byteOfRows_getLsbD _ hi]

/-- Two functions of the row that agree on the eight rows make one byte. -/
theorem byteOfRows_congr {f g : Nat → Bool} (h : ∀ r < 8, f r = g r) : byteOfRows f = byteOfRows g :=
  BitVec.eq_of_getLsbD_eq fun i hi => by simp [byteOfRows_getLsbD _ hi, h i hi]

/-- Inside the grid a column byte is the byte at its index. -/
theorem columnByte_eq (b : PixelRegister) {c : Nat} (hc : c < 16) : columnByte b c = b[c] := by
  simp [columnByte, hc]

/-- A column of a picture is the byte of its rows. -/
@[simp] theorem columnByte_columnsOf (lit : Nat → Nat → Bool) {c : Nat} (hc : c < 16) :
    columnByte (columnsOf lit) c = byteOfRows fun r => lit r c := by
  simp [columnByte, columnsOf, hc]

/-- A picture's register shows the picture. -/
@[simp] theorem pixel_columnsOf (lit : Nat → Nat → Bool) {r c : Nat} (hr : r < 8) (hc : c < 16) :
    pixel (columnsOf lit) r c = lit r c := by
  simp [pixel, hc, byteOfRows_getLsbD _ hr]

/-- Two pixel registers with the same 128 pixels are equal. -/
theorem pixelRegister_ext {b b' : PixelRegister} (h : ∀ r < 8, ∀ c < 16, pixel b r c = pixel b' r c) : b = b' := by
  apply Vector.ext
  intro c hc
  rw [← columnByte_eq b hc, ← columnByte_eq b' hc]
  exact BitVec.eq_of_getLsbD_eq fun r hr => h r hr c hc

/-- A register is the picture of its pixels. -/
theorem columnsOf_pixel (b : PixelRegister) : columnsOf (pixel b) = b :=
  pixelRegister_ext fun _ hr _ hc => pixel_columnsOf _ hr hc

/-- Every pixel of the cleared register is unlit. -/
@[simp] theorem pixel_clearedBuffer (r c : Nat) : pixel clearedBuffer r c = false := by
  unfold pixel columnByte clearedBuffer
  by_cases hc : c < 16 <;> simp [hc]

/-- Writing a bit sets that bit and no other. -/
theorem writeBit_getLsbD (v : Byte) {r k : Nat} (on : Bool) (hr : r < 8) (hk : k < 8) :
    (writeBit v r on).getLsbD k = if k = r then on else v.getLsbD k := by
  have h1 := oneBit_getLsbD hr hk
  unfold writeBit
  cases on
  · rw [if_neg (by simp), BitVec.getLsbD_and, BitVec.getLsbD_not, h1]
    by_cases hkr : k = r <;> simp [hkr, hk]
  · rw [if_pos rfl, BitVec.getLsbD_or, h1]
    by_cases hkr : k = r <;> simp [hkr]

/-- A coordinate in the grid, as natural numbers. -/
theorem inGrid_iff {row col : Int} :
    inGrid row col = true ↔ ∃ r c : Nat, row = r ∧ col = c ∧ r < 8 ∧ c < 16 := by
  constructor
  · intro h
    simp only [inGrid, decide_eq_true_eq] at h
    exact ⟨row.toNat, col.toNat, by omega, by omega, by omega, by omega⟩
  · rintro ⟨r, c, rfl, rfl, hr, hc⟩
    simp only [inGrid, decide_eq_true_eq]
    omega

/-- `setbit` sets the addressed pixel, if there is one, and no other (R96). -/
theorem pixel_setbit (row col : Int) (on : Bool) (b : PixelRegister) {r c : Nat} (hr : r < 8) (hc : c < 16) :
    pixel (setbit row col on b) r c = if (r : Int) = row ∧ (c : Int) = col then on else pixel b r c := by
  unfold setbit
  by_cases hg : inGrid row col = true
  · obtain ⟨r', c', rfl, rfl, hr', hc'⟩ := inGrid_iff.mp hg
    rw [if_pos hg]
    by_cases hcc : c' = c
    · subst hcc
      have : columnByte (b.setIfInBounds (Int.toNat c') (writeBit (columnByte b (Int.toNat c')) (Int.toNat r') on)) c' =
          writeBit (columnByte b c') r' on := by
        simp [columnByte, hc]
      rw [pixel, this, writeBit_getLsbD _ on hr' hr]
      simp [pixel]
    · have hcc' : ¬(c : Int) = c' := by omega
      have : columnByte (b.setIfInBounds (Int.toNat c') (writeBit (columnByte b (Int.toNat c')) (Int.toNat r') on)) c =
          columnByte b c := by
        simp [columnByte, hcc]
      rw [pixel, this]
      simp [hcc', pixel]
  · rw [if_neg hg]
    have hno : ¬((r : Int) = row ∧ (c : Int) = col) := by
      rintro ⟨rfl, rfl⟩
      exact hg (inGrid_iff.mpr ⟨r, c, rfl, rfl, hr, hc⟩)
    rw [if_neg hno]

/-- `setWhere` sets the pixels of the region and no other (R105). -/
@[simp] theorem pixel_setWhere (region : Nat → Nat → Bool) (on : Bool) (b : PixelRegister) {r c : Nat} (hr : r < 8)
    (hc : c < 16) : pixel (setWhere region on b) r c = if region r c then on else pixel b r c :=
  pixel_columnsOf _ hr hc

/-- The register has sixteen bytes. -/
@[simp] theorem bytesOf_length (b : PixelRegister) : (bytesOf b).length = 16 := by simp [bytesOf]

/-- Byte c of the register's bytes. -/
theorem bytesOf_getD (b : PixelRegister) (c : Nat) : (bytesOf b).getD c 0 = columnByte b c := by
  simp [bytesOf, columnByte, List.getD_eq_getElem?_getD]

/-- The bytes determine the register. -/
theorem bytesOf_inj {b b' : PixelRegister} (h : bytesOf b = bytesOf b') : b = b' := by
  simpa [bytesOf, Vector.toList_inj] using h

end Sys2Proof.Machine
end

