-- ==== Sys2Proof/Laws/Decode.lean ====
section
/-! SUPPORT. What the request port can hold and what its decoder answers: a request with an assigned code has that row's
operands (R75 to R77), and every request decodes to a well-formed host request. -/

namespace Sys2Proof

theorem operandType_eq_pin {v : Operand} : operandType v = .pin ↔ ∃ p, v = .pin p := by cases v <;> simp [operandType]

theorem operandType_eq_int {v : Operand} : operandType v = .int ↔ ∃ n, v = .int n := by cases v <;> simp [operandType]

theorem operandType_eq_bool {v : Operand} : operandType v = .bool ↔ ∃ b, v = .bool b := by
  cases v <;> simp [operandType]

theorem operandType_eq_text {v : Operand} : operandType v = .text ↔ ∃ t, v = .text t := by
  cases v <;> simp [operandType]

theorem operandType_eq_ints {v : Operand} : operandType v = .ints ↔ ∃ l, v = .ints l := by
  cases v <;> simp [operandType]

theorem operandType_eq_grid {v : Operand} : operandType v = .grid ↔ ∃ g, v = .grid g := by
  cases v <;> simp [operandType]

/-- Operands that fit an assigned code are of the types of its row (R76). -/
theorem operands_of_signature {code : Byte} {operands : List Operand} {types : List OperandType}
    (h : operandsFit code operands = true) (hs : signature code = some types) : operands.map operandType = types := by
  simpa [operandsFit, hs] using h

/-- An assigned code is a code of the table (R75). -/
theorem code_of_assigned {code : Byte} (h : assigned code = true) : code ∈ requestTable.map Prod.fst := by
  revert code; decide

/-- The decoder of the request port answers only well-formed host requests: no wire command, no internal primitive (R78),
and no illegal request with an assigned code (R79). -/
theorem decodeRequest_isRequest (r : Request) :
    (decodeRequest r).wellFormed = true ∧ encodeRequest (decodeRequest r) ≠ none ∧ decodeRequest r ≠ .scrollTick := by
  obtain ⟨code, operands, typed⟩ := r
  cases ha : assigned code with
  | false =>
    unfold decodeRequest
    split <;> first | exact ⟨rfl, nofun, nofun⟩ | simp [Instr.wellFormed, encodeRequest, ha]
  | true =>
    have hc := code_of_assigned ha
    simp only [requestTable, List.map_cons, List.map_nil, List.mem_cons, List.not_mem_nil, or_false] at hc
    rcases hc with rfl | rfl | rfl | rfl | rfl | rfl | rfl | rfl | rfl | rfl | rfl | rfl | rfl | rfl | rfl | rfl <;>
      have ht := operands_of_signature typed rfl <;>
      simp [List.map_eq_cons_iff, operandType_eq_pin, operandType_eq_int, operandType_eq_bool, operandType_eq_text,
        operandType_eq_ints, operandType_eq_grid, -Bool.exists_bool] at ht
    all_goals first
      | (subst ht; exact ⟨rfl, nofun, nofun⟩)
      | (obtain ⟨_, rfl⟩ := ht; exact ⟨rfl, nofun, nofun⟩)
      | (obtain ⟨_, _, rfl⟩ := ht; exact ⟨rfl, nofun, nofun⟩)
      | (obtain ⟨_, _, _, rfl⟩ := ht; exact ⟨rfl, nofun, nofun⟩)
      | (obtain ⟨_, _, _, _, rfl⟩ := ht; exact ⟨rfl, nofun, nofun⟩)
      | (obtain ⟨_, _, _, _, _, rfl⟩ := ht; exact ⟨rfl, nofun, nofun⟩)

end Sys2Proof
end

