-- ==== Sys2Proof/Laws/Wire.lean ====
section
/-! SUPPORT. What the event sequences do to the line levels and to the reference receiver, one lemma per sequence. -/

namespace Sys2Proof.Machine

/-- Events in a row set the levels one after the other. -/
theorem lastLevel_append (line : Line) (es es' : List Event) (l : Option Level) :
    lastLevel line (es ++ es') l = lastLevel line es' (lastLevel line es l) := by
  induction es generalizing l with
  | nil => rfl
  | cons e es ih => cases e <;> simp [lastLevel, ih]

/-- Emitting in two parts is emitting at once. -/
theorem State.emit_emit (s : State) (es es' : List Event) : (s.emit es).emit es' = s.emit (es ++ es') := by
  simp [State.emit, lastLevel_append]

/-- Emitting nothing changes nothing. -/
@[simp] theorem State.emit_nil (s : State) : s.emit [] = s := by
  simp [State.emit, lastLevel]

/-- The receiver reads events in order. -/
theorem receiveAll_append (ρ : Receiver) (es es' : List Event) :
    receiveAll ρ (es ++ es') = receiveAll (receiveAll ρ es) es' := by
  simp [receiveAll]

@[simp] theorem receiveAll_nil (ρ : Receiver) : receiveAll ρ [] = ρ := rfl

/-- After an end condition both lines are 1 (R88). -/
theorem endCondition_levels (t : Timing) (line : Line) (l : Option Level) :
    lastLevel line (endCondition t) l = some true := by
  cases line <;> rfl

/-- After a frame both lines are 1 (R38). -/
theorem frameEvents_levels (t : Timing) (xs : Frame) (line : Line) (l : Option Level) :
    lastLevel line (frameEvents t xs) l = some true := by
  rw [frameEvents, lastLevel_append, endCondition_levels]

/-- After one frame or more both lines are 1 (R38). -/
theorem framesEvents_levels (t : Timing) {fs : List Frame} (h : fs ≠ []) (line : Line) (l : Option Level) :
    lastLevel line (fs.flatMap (frameEvents t)) l = some true := by
  induction fs generalizing l with
  | nil => exact absurd rfl h
  | cons f rest ih =>
    rw [List.flatMap_cons, lastLevel_append]
    by_cases hr : rest = []
    · subst hr; simp [lastLevel, frameEvents_levels]
    · exact ih hr _

/-- A start condition opens a frame for a receiver outside one, whatever the line levels were (R70, R87). -/
theorem receive_startCondition (t : Timing) (ρ : Receiver) (h : ρ.inFrame = false) :
    receiveAll ρ (startCondition t) =
      { c := some true, d := some false, inFrame := true, bits := [], bytes := [], frames := ρ.frames } := by
  obtain ⟨c, d, f, bits, bytes, frames⟩ := ρ
  simp only at h
  subst h
  simp [receiveAll, startCondition, receive]

/-- A bit cell inside a frame gives the receiver its bit (R70, R85). -/
theorem receive_bitCell (t : Timing) (b x : Level) (bits : List Level) (bytes : List Byte) (frames : List Frame)
    (h : bits.length < 7) :
    receiveAll { c := some true, d := some x, inFrame := true, bits := bits, bytes := bytes, frames := frames }
        (bitCell t b) =
      { c := some true, d := some b, inFrame := true, bits := bits ++ [b], bytes := bytes, frames := frames } := by
  have h8 : ¬bits.length + 1 = 8 := by omega
  simp [receiveAll, bitCell, receive, sampleBit, h8]

/-- The eighth bit cell of a byte gives the receiver the byte (R70). -/
theorem receive_lastBitCell (t : Timing) (b x : Level) (bits : List Level) (bytes : List Byte) (frames : List Frame)
    (h : bits.length = 7) :
    receiveAll { c := some true, d := some x, inFrame := true, bits := bits, bytes := bytes, frames := frames }
        (bitCell t b) =
      { c := some true, d := some b, inFrame := true, bits := [], bytes := bytes ++ [byteOfBits (bits ++ [b])],
        frames := frames } := by
  simp [receiveAll, bitCell, receive, sampleBit, h]

/-- The byte of its own bits, most significant bit first (R61, R70). -/
theorem byteOfBits_self (x : Byte) :
    byteOfBits [x.getLsbD 7, x.getLsbD 6, x.getLsbD 5, x.getLsbD 4, x.getLsbD 3, x.getLsbD 2, x.getLsbD 1, x.getLsbD 0] =
      x := by
  revert x; decide

/-- The eight bit cells of a byte inside a frame give the receiver the byte (R70, R86). -/
theorem receive_byteCells (t : Timing) (x : Byte) (d : Level) (bytes : List Byte) (frames : List Frame) :
    receiveAll { c := some true, d := some d, inFrame := true, bits := [], bytes := bytes, frames := frames }
        (byteCells t x) =
      { c := some true, d := some (x.getLsbD 0), inFrame := true, bits := [], bytes := bytes ++ [x],
        frames := frames } := by
  simp only [byteCells, List.flatMap_cons, List.flatMap_nil, List.append_nil, receiveAll_append]
  rw [receive_bitCell _ _ _ _ _ _ (by simp), receive_bitCell _ _ _ _ _ _ (by simp),
    receive_bitCell _ _ _ _ _ _ (by simp), receive_bitCell _ _ _ _ _ _ (by simp),
    receive_bitCell _ _ _ _ _ _ (by simp), receive_bitCell _ _ _ _ _ _ (by simp),
    receive_bitCell _ _ _ _ _ _ (by simp), receive_lastBitCell _ _ _ _ _ _ (by simp)]
  simp only [List.nil_append, List.cons_append]
  rw [byteOfBits_self]

/-- An end condition closes the frame; its clock rise samples a bit that is discarded (R70, R71, R88). -/
theorem receive_endCondition (t : Timing) (d : Level) (bytes : List Byte) (frames : List Frame) :
    receiveAll { c := some true, d := some d, inFrame := true, bits := [], bytes := bytes, frames := frames }
        (endCondition t) =
      { c := some true, d := some true, inFrame := false, bits := [], bytes := [], frames := frames ++ [bytes] } := by
  cases d <;> simp [receiveAll, endCondition, receive, sampleBit]

end Sys2Proof.Machine
end

