-- ==== Sys2Proof/Laws/Ops.lean ====
section
/-! SUPPORT. What each shared operation can do, said once: admission, the end of a request, the block's own actions, the
scroll, the whole of `exec` and the whole of `step`. -/

namespace Sys2Proof.Machine

/-- A ready block lets an assigned request through (R125). -/
theorem admission_ready {r : Request} {s : State} {run : State → Out} (h : Ready s) (ha : assigned r.code = true) :
    admission r s run = run s := by
  obtain ⟨hf, hm, hi⟩ := h
  simp [admission, hf, hm, hi, ha]

/-- Everything admission can do (R125): a fault is recorded, or the request runs. -/
theorem admission_cases {r : Request} {s t : State} {run : State → Out} (h : admission r s run = .next t) :
    s.fault = none ∧
      ((assigned r.code = false ∧ t = s.raise .illegalRequest r) ∨
        (assigned r.code = true ∧ s.mode = .scrolling ∧ t = s.raise .busyViolation r) ∨
        (assigned r.code = true ∧ s.mode = .idle ∧ s.initialized = false ∧ r.code ≠ 0x01 ∧
          t = s.raise .notInitialized r) ∨
        (assigned r.code = true ∧ s.mode = .idle ∧ (s.initialized = true ∨ r.code = 0x01) ∧ run s = .next t)) := by
  unfold admission at h
  split at h
  · simp at h
  · rename_i hf
    refine ⟨by simpa using hf, ?_⟩
    split at h
    · rename_i ha
      exact .inl ⟨by simpa using ha, (Host.Outcome.next.inj h).symm⟩
    · rename_i ha
      have ha : assigned r.code = true := by simpa using ha
      split at h
      · rename_i hm
        exact .inr (.inl ⟨ha, hm, (Host.Outcome.next.inj h).symm⟩)
      · rename_i hm
        have hm : s.mode = .idle := by cases hs : s.mode <;> simp_all
        split at h
        · rename_i hi
          simp only [Bool.and_eq_true, Bool.not_eq_true', decide_eq_true_eq] at hi
          exact .inr (.inr (.inl ⟨ha, hm, hi.1, hi.2, (Host.Outcome.next.inj h).symm⟩))
        · rename_i hi
          refine .inr (.inr (.inr ⟨ha, hm, ?_, h⟩))
          by_contra hno
          rw [not_or] at hno
          exact hi (by rw [Bool.and_eq_true]; exact ⟨by simp [hno.1], by rw [decide_eq_true_eq]; exact hno.2⟩)

/-- A request is never refused or stopped by its own end: it answers a next state (R123). -/
theorem finish_cases {r : Result} {effect : State → State} {s t : State} (h : finish r effect s = .next t) :
    (r = .ok ∧ t = (effect s).respond ⟨.ok, none⟩) ∨ (r ≠ .ok ∧ t = s.respond ⟨r, none⟩) := by
  cases r <;> simp_all [finish, eq_comm]

/-- The same for a request that returns a value. -/
theorem finishWith_cases {r : Result} {v : List Byte} {effect : State → State} {s t : State}
    (h : finishWith r v effect s = .next t) :
    (r = .ok ∧ t = (effect s).respond ⟨.ok, some v⟩) ∨ (r ≠ .ok ∧ t = s.respond ⟨r, some []⟩) := by
  cases r <;> simp_all [finishWith, eq_comm]

/-- An action of the block takes place unless the block is quiescent (R130). -/
theorem perform_cases {s t : State} {act : State → State} (h : perform s act = .next t) :
    s.fault = none ∧ t = act s := by
  unfold perform at h
  cases hf : s.fault <;> simp_all [eq_comm]

/-- A tick has a step only while a scroll runs and no fault is recorded (R118). -/
theorem execScrollTick_cases {s t : State} (h : execScrollTick s = .next t) :
    s.fault = none ∧ s.mode = .scrolling ∧ t = s.scrollFrame.scrollAdvance := by
  unfold execScrollTick at h
  cases hf : s.fault <;> cases hm : s.mode <;> simp_all [eq_comm]

/-- A request with an unassigned code has no other effect than its fault, and the ill-formed term has no next state (R79,
R129). -/
theorem execIllegalRequest_cases {code : Byte} {operands : List Operand} {s t : State}
    (h : execIllegalRequest code operands s = .next t) :
    ∃ ha : assigned code = false, s.fault = none ∧ t = s.raise .illegalRequest (Request.unassigned code operands ha) := by
  unfold execIllegalRequest at h
  split at h
  · rename_i ha
    obtain ⟨hf, h⟩ := admission_cases h
    rcases h with ⟨_, rfl⟩ | ⟨hn, _⟩ | ⟨hn, _⟩ | ⟨hn, _⟩
    · exact ⟨ha, hf, rfl⟩
    all_goals exact absurd (hn.symm.trans ha) (by decide)
  · split at h <;> simp at h

/-- The request of an illegal request (R79). -/
@[simp] theorem encodeRequest_illegalRequest {code : Byte} (h : assigned code = false) (operands : List Operand) :
    encodeRequest (.illegalRequest code operands) = some (Request.unassigned code operands h) := dif_pos h

/-- The events of a render are the three frames of the register's bytes (R63, R100). -/
theorem renderEvents_eq (b : PixelRegister) :
    renderEvents b = (writeFrames (bytesOf b)).flatMap (frameEvents Config.timing) := rfl

/-- Rendering leaves both lines at 1 (R38). -/
theorem renderEvents_levels (b : PixelRegister) (line : Line) (l : Option Level) :
    lastLevel line (renderEvents b) l = some true :=
  framesEvents_levels _ (by simp [writeFrames]) line l

/-- A scroll bitmap has at least its two pads (R117). -/
theorem scrollBitmap_length_ge (font : Font) (fold : Bool) (text : Text) :
    32 ≤ (scrollBitmap font fold text).length := by
  simp only [scrollBitmap, scrollPad, List.length_append, List.length_replicate]; omega

/-- What an instruction that answers a next state has done to the state: one of these eight. -/
inductive Effect (i : Instr) (s : State) : State → Prop where
  /-- Admission recorded a fault (R126). -/
  | raised (k : FaultKind) (r : Request) (hr : encodeRequest i = some r) : Effect i s (s.raise k r)
  /-- The request was answered and nothing else. -/
  | answered (resp : Response) (hi : hostRequest i = true) : Effect i s (s.respond resp)
  /-- The pixel register was written and the request answered. -/
  | wrote (b : PixelRegister) (resp : Response) (hi : hostRequest i = true) (hs : s.initialized = true)
      (hr : resp.result = .ok) : Effect i s (State.respond { s with buf := b } resp)
  /-- The pixel register was written (or left), frames were sent, and the request answered. -/
  | sent (b : PixelRegister) (fs : List Frame) (hi : hostRequest i = true) (hs : s.initialized = true) (hfs : fs ≠ [])
      (hne : ∀ f ∈ fs, f ≠ []) :
      Effect i s ((State.emit { s with buf := b } (fs.flatMap (frameEvents Config.timing))).respond ⟨.ok, none⟩)
  /-- A session began. -/
  | began (c d : PinId) (hi : i = .init c d) (hcd : c ≠ d) : Effect i s ((s.beginSession c d).respond ⟨.ok, none⟩)
  /-- A scroll was accepted. -/
  | accepted (bm : List Byte) (v : Nat) (st : ScrollStep) (hi : hostRequest i = true) (hs : s.initialized = true)
      (hbm : 32 ≤ bm.length) : Effect i s (s.acceptScroll bm v st)
  /-- A tick ran. -/
  | ticked (hi : i = .scrollTick) (hm : s.mode = .scrolling) : Effect i s s.scrollFrame.scrollAdvance
  /-- An internal primitive or a wire command drove the lines. -/
  | drove (es : List Event) (hi : encodeRequest i = none) (hn : i ≠ .scrollTick) : Effect i s (s.emit es)

/-- The end of admission for a request whose code is assigned and not INIT's: it runs on an initialised block, or a fault
is recorded. -/
theorem effect_of_admission {i : Instr} {r : Request} {s t : State} {run : State → Out}
    (hr : encodeRequest i = some r) (hc : r.code ≠ 0x01) (h : admission r s run = .next t)
    (hrun : s.initialized = true → s.mode = .idle → run s = .next t → Effect i s t) :
    s.fault = none ∧ Effect i s t := by
  obtain ⟨hf, h⟩ := admission_cases h
  refine ⟨hf, ?_⟩
  rcases h with ⟨_, rfl⟩ | ⟨_, _, rfl⟩ | ⟨_, _, _, _, rfl⟩ | ⟨_, hm, hi, h⟩
  · exact .raised _ _ hr
  · exact .raised _ _ hr
  · exact .raised _ _ hr
  · exact hrun (hi.resolve_right hc) hm h

/-- Everything an instruction can do (R124, R125, R130): if it answers a next state, no fault was recorded before, and the
state changed in one of the ways of `Effect`. -/
theorem exec_cases {i : Instr} {s t : State} (h : exec i s = .next t) : s.fault = none ∧ Effect i s t := by
  cases i with
  | init clk din =>
    obtain ⟨hf, h⟩ := admission_cases h
    refine ⟨hf, ?_⟩
    rcases h with ⟨_, rfl⟩ | ⟨_, _, rfl⟩ | ⟨_, _, _, _, rfl⟩ | ⟨_, _, _, h⟩
    · exact .raised _ _ rfl
    · exact .raised _ _ rfl
    · exact .raised _ _ rfl
    · by_cases hcd : clk = din
      · rcases finish_cases h with ⟨hr, _⟩ | ⟨_, rfl⟩
        · simp [checkInit, hcd] at hr
        · exact .answered _ rfl
      · rcases finish_cases h with ⟨_, rfl⟩ | ⟨hr, _⟩
        · exact .began _ _ rfl hcd
        · simp [checkInit, hcd] at hr
  | writeFrame data =>
    refine effect_of_admission rfl (by simp) h fun hi _ h => ?_
    rcases finish_cases h with ⟨_, rfl⟩ | ⟨_, rfl⟩
    · exact .sent s.buf (writeFrames (data.map low8)) rfl hi (by simp [writeFrames]) (by simp [writeFrames])
    · exact .answered _ rfl
  | turnOn =>
    refine effect_of_admission rfl (by simp) h fun hi _ h => ?_
    rcases finish_cases h with ⟨_, rfl⟩ | ⟨_, rfl⟩
    · simpa [commandFrame] using Effect.sent (i := .turnOn) (s := s) s.buf [[byteTurnOn]] rfl hi (by simp) (by simp)
    · exact .answered _ rfl
  | turnOff =>
    refine effect_of_admission rfl (by simp) h fun hi _ h => ?_
    rcases finish_cases h with ⟨_, rfl⟩ | ⟨_, rfl⟩
    · simpa [commandFrame] using
        Effect.sent (i := .turnOff) (s := s) s.buf [[byteDisplayOff]] rfl hi (by simp) (by simp)
    · exact .answered _ rfl
  | brightness level =>
    refine effect_of_admission rfl (by simp) h fun hi _ h => ?_
    rcases finish_cases h with ⟨_, rfl⟩ | ⟨_, rfl⟩
    · simpa [commandFrame] using
        Effect.sent (i := .brightness level) (s := s) s.buf [[byteDisplayOnDefault ||| low8 level]] rfl hi (by simp)
          (by simp)
    · exact .answered _ rfl
  | setPixel row col on =>
    refine effect_of_admission rfl (by simp) h fun hi _ h => ?_
    rcases finish_cases h with ⟨_, rfl⟩ | ⟨_, rfl⟩
    · exact .wrote _ _ rfl hi rfl
    · exact .answered _ rfl
  | render =>
    refine effect_of_admission rfl (by simp) h fun hi _ h => ?_
    rcases finish_cases h with ⟨_, rfl⟩ | ⟨_, rfl⟩
    · exact .sent s.buf (writeFrames (bytesOf s.buf)) rfl hi (by simp [writeFrames]) (by simp [writeFrames])
    · exact .answered _ rfl
  | clear =>
    refine effect_of_admission rfl (by simp) h fun hi _ h => ?_
    rcases finish_cases h with ⟨_, rfl⟩ | ⟨_, rfl⟩
    · exact .sent clearedBuffer (writeFrames (bytesOf clearedBuffer)) rfl hi (by simp [writeFrames])
        (by simp [writeFrames])
    · exact .answered _ rfl
  | loadImage grid =>
    refine effect_of_admission rfl (by simp) h fun hi _ h => ?_
    rcases finish_cases h with ⟨_, rfl⟩ | ⟨_, rfl⟩
    · exact .sent (columnsOf (gridAt grid)) (writeFrames (bytesOf (columnsOf (gridAt grid)))) rfl hi
        (by simp [writeFrames]) (by simp [writeFrames])
    · exact .answered _ rfl
  | parsePattern text =>
    refine effect_of_admission rfl (by simp) h fun hi _ h => ?_
    rcases finishWith_cases h with ⟨_, rfl⟩ | ⟨_, rfl⟩
    · exact .wrote _ _ rfl hi rfl
    · exact .answered _ rfl
  | drawRect x y w h' on =>
    refine effect_of_admission rfl (by simp) h fun hi _ h => ?_
    rcases finish_cases h with ⟨_, rfl⟩ | ⟨_, rfl⟩
    · exact .wrote _ _ rfl hi rfl
    · exact .answered _ rfl
  | drawLine r0 c0 r1 c1 =>
    refine effect_of_admission rfl (by simp) h fun hi _ h => ?_
    rcases finish_cases h with ⟨_, rfl⟩ | ⟨_, rfl⟩
    · exact .wrote _ _ rfl hi rfl
    · exact .answered _ rfl
  | readBuffer =>
    refine effect_of_admission rfl (by simp) h fun hi _ h => ?_
    rcases finishWith_cases h with ⟨_, rfl⟩ | ⟨_, rfl⟩ <;> exact .answered _ rfl
  | transpose pattern n =>
    refine effect_of_admission rfl (by simp) h fun hi _ h => ?_
    rcases finishWith_cases h with ⟨_, rfl⟩ | ⟨_, rfl⟩ <;> exact .answered _ rfl
  | buildScrollBitmap text =>
    refine effect_of_admission rfl (by simp) h fun hi _ h => ?_
    rcases finishWith_cases h with ⟨_, rfl⟩ | ⟨_, rfl⟩ <;> exact .answered _ rfl
  | scrollText text speed dir =>
    dsimp only [exec] at h
    refine effect_of_admission rfl (by simp) h fun hi _ h => ?_
    split at h
    · obtain rfl := (Host.Outcome.next.injEq _ _).mp h
      exact .accepted _ _ _ rfl hi (scrollBitmap_length_ge _ _ _)
    · obtain rfl := (Host.Outcome.next.injEq _ _).mp h
      exact .answered _ rfl
  | illegalRequest code operands =>
    obtain ⟨ha, hf, rfl⟩ := execIllegalRequest_cases h
    exact ⟨hf, .raised _ _ (encodeRequest_illegalRequest ha operands)⟩
  | scrollTick =>
    dsimp only [exec] at h
    obtain ⟨hf, hm, rfl⟩ := execScrollTick_cases h
    exact ⟨hf, .ticked rfl hm⟩
  | cmdAutoIncrement => dsimp only [exec] at h; obtain ⟨hf, rfl⟩ := perform_cases h; exact ⟨hf, .drove _ rfl (by simp)⟩
  | cmdAddress0 => dsimp only [exec] at h; obtain ⟨hf, rfl⟩ := perform_cases h; exact ⟨hf, .drove _ rfl (by simp)⟩
  | cmdDisplayOnDefault => dsimp only [exec] at h; obtain ⟨hf, rfl⟩ := perform_cases h; exact ⟨hf, .drove _ rfl (by simp)⟩
  | cmdTurnOn => dsimp only [exec] at h; obtain ⟨hf, rfl⟩ := perform_cases h; exact ⟨hf, .drove _ rfl (by simp)⟩
  | cmdDisplayOff => dsimp only [exec] at h; obtain ⟨hf, rfl⟩ := perform_cases h; exact ⟨hf, .drove _ rfl (by simp)⟩
  | cmdBrightness level => dsimp only [exec] at h; obtain ⟨hf, rfl⟩ := perform_cases h; exact ⟨hf, .drove _ rfl (by simp)⟩
  | wireDataByte d => dsimp only [exec] at h; obtain ⟨hf, rfl⟩ := perform_cases h; exact ⟨hf, .drove _ rfl (by simp)⟩
  | sendBit b => dsimp only [exec] at h; obtain ⟨hf, rfl⟩ := perform_cases h; exact ⟨hf, .drove _ rfl (by simp)⟩
  | sendByte x => dsimp only [exec] at h; obtain ⟨hf, rfl⟩ := perform_cases h; exact ⟨hf, .drove _ rfl (by simp)⟩
  | startSignal => dsimp only [exec] at h; obtain ⟨hf, rfl⟩ := perform_cases h; exact ⟨hf, .drove _ rfl (by simp)⟩
  | endSignal => dsimp only [exec] at h; obtain ⟨hf, rfl⟩ := perform_cases h; exact ⟨hf, .drove _ rfl (by simp)⟩
  | sendCommand x => dsimp only [exec] at h; obtain ⟨hf, rfl⟩ := perform_cases h; exact ⟨hf, .drove _ rfl (by simp)⟩

/-- Everything a step can do: nothing in a quiet turn, a tick, or a request taken from the host's turns. -/
theorem step_cases {s t : State} (h : step s = .next t) :
    s.fault = none ∧
      ∃ turns : List HostTurn,
        ((s.mode = .idle ∧ t = { s with host := turns }) ∨
          (s.mode = .scrolling ∧ t = State.scrollAdvance (State.scrollFrame { s with host := turns })) ∨
          (∃ r, exec (decodeRequest r) { s with host := turns } = .next t)) := by
  unfold step at h
  by_cases hf : s.fault.isSome = true
  · simp [hf] at h
  · refine ⟨by simpa using hf, ?_⟩
    rw [if_neg hf] at h
    have quiet : ∀ turns, quietTurn { s with host := turns } = .next t →
        (s.mode = .idle ∧ t = { s with host := turns }) ∨
          (s.mode = .scrolling ∧ t = State.scrollAdvance (State.scrollFrame { s with host := turns })) := by
      intro turns hq
      unfold quietTurn at hq
      cases hm : s.mode with
      | idle => left; simpa [hm, eq_comm] using hq
      | scrolling =>
        simp only [hm] at hq
        exact .inr ⟨rfl, (execScrollTick_cases hq).2.2⟩
    unfold runTurn at h
    split at h
    · rename_i hh
      have := quiet s.host h
      exact ⟨s.host, this.elim .inl fun h => .inr (.inl h)⟩
    · exact ⟨_, .inr (.inr ⟨_, h⟩)⟩
    · split at h
      · exact ⟨_, .inr (.inr ⟨_, h⟩)⟩
      · exact ⟨s.host, (quiet s.host h).elim .inl fun h => .inr (.inl h)⟩
    · exact ⟨_, (quiet _ h).elim .inl fun h => .inr (.inl h)⟩

end Sys2Proof.Machine
end

