-- ==== Sys2Proof/Laws/PerInstr.lean ====
section
/-! SUPPORT. The families of statements about every instruction as syntax, one lemma per constructor of `Instr`. -/

namespace Sys2Proof.Laws

/-- How many of the three encodings of `spec/opcode_table.json` an instruction has: a request, a wire byte, an event
sequence. -/
def encodings (t : Timing) (i : Instr) : Nat :=
  (encodeRequest i).isSome.toNat + (encodeWireByte i).isSome.toNat + (encodeEvents t i).isSome.toNat

/-- Every well-formed instruction has the one encoding of its row, SCROLL_TICK none (R78); and the request of an
instruction is one of R75 with the operand types of R76, or its code is unassigned (R79). -/
def OneEncoding.Statement (i : Instr) : Prop :=
  i.wellFormed = true →
    (∀ t : Timing, encodings t i = if i = .scrollTick then 0 else 1) ∧
    ∀ r : Request, encodeRequest i = some r →
      signature r.code = some (r.operands.map operandType) ∨ assigned r.code = false

theorem OneEncoding.init (clk din : PinId) : OneEncoding.Statement (.init clk din) :=
  fun _ => ⟨fun _ => rfl, fun _ h => Option.some.inj h ▸ .inl rfl⟩

theorem OneEncoding.writeFrame (data : List Int) : OneEncoding.Statement (.writeFrame data) :=
  fun _ => ⟨fun _ => rfl, fun _ h => Option.some.inj h ▸ .inl rfl⟩

theorem OneEncoding.turnOn : OneEncoding.Statement .turnOn :=
  fun _ => ⟨fun _ => rfl, fun _ h => Option.some.inj h ▸ .inl rfl⟩

theorem OneEncoding.turnOff : OneEncoding.Statement .turnOff :=
  fun _ => ⟨fun _ => rfl, fun _ h => Option.some.inj h ▸ .inl rfl⟩

theorem OneEncoding.brightness (level : Int) : OneEncoding.Statement (.brightness level) :=
  fun _ => ⟨fun _ => rfl, fun _ h => Option.some.inj h ▸ .inl rfl⟩

theorem OneEncoding.setPixel (row col : Int) (on : Bool) : OneEncoding.Statement (.setPixel row col on) :=
  fun _ => ⟨fun _ => rfl, fun _ h => Option.some.inj h ▸ .inl rfl⟩

theorem OneEncoding.render : OneEncoding.Statement .render :=
  fun _ => ⟨fun _ => rfl, fun _ h => Option.some.inj h ▸ .inl rfl⟩

theorem OneEncoding.clear : OneEncoding.Statement .clear :=
  fun _ => ⟨fun _ => rfl, fun _ h => Option.some.inj h ▸ .inl rfl⟩

theorem OneEncoding.loadImage (grid : List (List Bool)) : OneEncoding.Statement (.loadImage grid) :=
  fun _ => ⟨fun _ => rfl, fun _ h => Option.some.inj h ▸ .inl rfl⟩

theorem OneEncoding.parsePattern (text : Text) : OneEncoding.Statement (.parsePattern text) :=
  fun _ => ⟨fun _ => rfl, fun _ h => Option.some.inj h ▸ .inl rfl⟩

theorem OneEncoding.drawRect (x y w h : Int) (on : Bool) : OneEncoding.Statement (.drawRect x y w h on) :=
  fun _ => ⟨fun _ => rfl, fun _ h => Option.some.inj h ▸ .inl rfl⟩

theorem OneEncoding.drawLine (r0 c0 r1 c1 : Int) : OneEncoding.Statement (.drawLine r0 c0 r1 c1) :=
  fun _ => ⟨fun _ => rfl, fun _ h => Option.some.inj h ▸ .inl rfl⟩

theorem OneEncoding.readBuffer : OneEncoding.Statement .readBuffer :=
  fun _ => ⟨fun _ => rfl, fun _ h => Option.some.inj h ▸ .inl rfl⟩

theorem OneEncoding.transpose (pattern : List Int) (totalColumns : Int) :
    OneEncoding.Statement (.transpose pattern totalColumns) :=
  fun _ => ⟨fun _ => rfl, fun _ h => Option.some.inj h ▸ .inl rfl⟩

theorem OneEncoding.buildScrollBitmap (text : Text) : OneEncoding.Statement (.buildScrollBitmap text) :=
  fun _ => ⟨fun _ => rfl, fun _ h => Option.some.inj h ▸ .inl rfl⟩

theorem OneEncoding.scrollText (text : Text) (speed dir : Int) :
    OneEncoding.Statement (.scrollText text speed dir) :=
  fun _ => ⟨fun _ => rfl, fun _ h => Option.some.inj h ▸ .inl rfl⟩

theorem OneEncoding.illegalRequest (code : Byte) (operands : List Operand) :
    OneEncoding.Statement (.illegalRequest code operands) := by
  intro hw
  have ha : assigned code = false := by simpa [Instr.wellFormed] using hw
  refine ⟨fun t => by simp [encodings, encodeRequest, encodeWireByte, encodeEvents, ha], fun r h => .inr ?_⟩
  rw [encodeRequest, dif_pos ha] at h
  exact Option.some.inj h ▸ ha

theorem OneEncoding.cmdAutoIncrement : OneEncoding.Statement .cmdAutoIncrement :=
  fun _ => ⟨fun _ => rfl, fun _ h => nomatch h⟩

theorem OneEncoding.cmdAddress0 : OneEncoding.Statement .cmdAddress0 :=
  fun _ => ⟨fun _ => rfl, fun _ h => nomatch h⟩

theorem OneEncoding.cmdDisplayOnDefault : OneEncoding.Statement .cmdDisplayOnDefault :=
  fun _ => ⟨fun _ => rfl, fun _ h => nomatch h⟩

theorem OneEncoding.cmdTurnOn : OneEncoding.Statement .cmdTurnOn :=
  fun _ => ⟨fun _ => rfl, fun _ h => nomatch h⟩

theorem OneEncoding.cmdDisplayOff : OneEncoding.Statement .cmdDisplayOff :=
  fun _ => ⟨fun _ => rfl, fun _ h => nomatch h⟩

theorem OneEncoding.cmdBrightness (level : BitVec 3) : OneEncoding.Statement (.cmdBrightness level) :=
  fun _ => ⟨fun _ => rfl, fun _ h => nomatch h⟩

theorem OneEncoding.wireDataByte (d : Byte) : OneEncoding.Statement (.wireDataByte d) :=
  fun _ => ⟨fun _ => rfl, fun _ h => nomatch h⟩

theorem OneEncoding.sendBit (b : Level) : OneEncoding.Statement (.sendBit b) :=
  fun _ => ⟨fun _ => rfl, fun _ h => nomatch h⟩

theorem OneEncoding.sendByte (x : Int) : OneEncoding.Statement (.sendByte x) :=
  fun _ => ⟨fun _ => rfl, fun _ h => nomatch h⟩

theorem OneEncoding.startSignal : OneEncoding.Statement .startSignal :=
  fun _ => ⟨fun _ => rfl, fun _ h => nomatch h⟩

theorem OneEncoding.endSignal : OneEncoding.Statement .endSignal :=
  fun _ => ⟨fun _ => rfl, fun _ h => nomatch h⟩

theorem OneEncoding.sendCommand (x : Int) : OneEncoding.Statement (.sendCommand x) :=
  fun _ => ⟨fun _ => rfl, fun _ h => nomatch h⟩

theorem OneEncoding.scrollTick : OneEncoding.Statement .scrollTick :=
  fun _ => ⟨fun _ => rfl, fun _ h => nomatch h⟩

end Sys2Proof.Laws
end

