-- ==== Sys2Proof/Laws/Ready.lean ====
section
/-! SUPPORT. Each request on a ready block, past admission, one lemma per request. -/

namespace Sys2Proof.Machine

theorem exec_writeFrame_ready {s : State} (hr : Ready s) (data : List Int) :
    exec (.writeFrame data) s =
      finish (checkWriteFrame data) (fun s => s.emit (writeFrameEvents Config.timing (data.map low8))) s :=
  admission_ready hr rfl

theorem exec_turnOn_ready {s : State} (hr : Ready s) :
    exec (.turnOn) s =
      finish .ok (fun s => s.emit (commandFrame Config.timing byteTurnOn)) s :=
  admission_ready hr rfl

theorem exec_turnOff_ready {s : State} (hr : Ready s) :
    exec (.turnOff) s =
      finish .ok (fun s => s.emit (commandFrame Config.timing byteDisplayOff)) s :=
  admission_ready hr rfl

theorem exec_brightness_ready {s : State} (hr : Ready s) (level : Int) :
    exec (.brightness level) s =
      finish (checkBrightness level)
        (fun s => s.emit (commandFrame Config.timing (byteDisplayOnDefault ||| low8 level))) s :=
  admission_ready hr rfl

theorem exec_setPixel_ready {s : State} (hr : Ready s) (row col : Int) (on : Bool) :
    exec (.setPixel row col on) s =
      finish (checkSetPixel row col) (fun s => { s with buf := setbit row col on s.buf }) s :=
  admission_ready hr rfl

theorem exec_render_ready {s : State} (hr : Ready s) :
    exec (.render) s =
      finish .ok State.render s :=
  admission_ready hr rfl

theorem exec_clear_ready {s : State} (hr : Ready s) :
    exec (.clear) s =
      finish .ok (fun s => State.render { s with buf := clearedBuffer }) s :=
  admission_ready hr rfl

theorem exec_loadImage_ready {s : State} (hr : Ready s) (grid : List (List Bool)) :
    exec (.loadImage grid) s =
      finish (checkLoadImage grid) (fun s => State.render { s with buf := columnsOf (gridAt grid) }) s :=
  admission_ready hr rfl

theorem exec_parsePattern_ready {s : State} (hr : Ready s) (text : Text) :
    exec (.parsePattern text) s =
      finishWith (checkPattern (splitLines text)) (bytesOf (columnsOf (patternAt (splitLines text))))
        (fun s => { s with buf := columnsOf (patternAt (splitLines text)) }) s :=
  admission_ready hr rfl

theorem exec_drawRect_ready {s : State} (hr : Ready s) (x y w h : Int) (on : Bool) :
    exec (.drawRect x y w h on) s =
      finish .ok (fun s => { s with buf := setWhere (inRect x y w h) on s.buf }) s :=
  admission_ready hr rfl

theorem exec_drawLine_ready {s : State} (hr : Ready s) (r0 c0 r1 c1 : Int) :
    exec (.drawLine r0 c0 r1 c1) s =
      finish (checkDrawLine r0 c0 r1 c1)
        (fun s => { s with buf := setWhere (onSegment r0 c0 r1 c1) true s.buf }) s :=
  admission_ready hr rfl

theorem exec_readBuffer_ready {s : State} (hr : Ready s) :
    exec (.readBuffer) s =
      finishWith .ok (bytesOf s.buf) id s :=
  admission_ready hr rfl

theorem exec_transpose_ready {s : State} (hr : Ready s) (pattern : List Int) (n : Int) :
    exec (.transpose pattern n) s =
      finishWith (checkTranspose pattern n) (transposeColumns pattern n.toNat) id s :=
  admission_ready hr rfl

theorem exec_buildScrollBitmap_ready {s : State} (hr : Ready s) (text : Text) :
    exec (.buildScrollBitmap text) s =
      finishWith .ok (scrollBitmap Config.font Config.foldCase text) id s :=
  admission_ready hr rfl

theorem exec_scrollText_ready {s : State} (hr : Ready s) (text : Text) (speed dir : Int) :
    exec (.scrollText text speed dir) s =
      match checkScrollText speed dir, scrollStepOf dir with
      | .ok, some step => .next (s.acceptScroll (scrollBitmap Config.font Config.foldCase text) speed.toNat step)
      | _, _ => .next (s.respond ⟨.outOfRange, none⟩) := by
  dsimp only [exec, execScrollText]
  exact admission_ready hr rfl

/-- INIT passes admission on a block that is not initialised too (R125). -/
theorem exec_init_admitted {s : State} (hf : s.fault = none) (hm : s.mode = .idle) (clk din : PinId) :
    exec (.init clk din) s = finish (checkInit clk din) (fun s => s.beginSession clk din) s := by
  have ha : assigned 1#8 = true := by decide
  simp [exec, execInit, admission, hf, hm, ha]

/-- A write sends three frames, so one at least. -/
@[simp] theorem writeFrames_ne_nil (d : List Byte) : writeFrames d ≠ [] := by simp [writeFrames]

/-- A write leaves both lines at 1 (R38). -/
theorem writeFrameEvents_levels (t : Timing) (d : List Byte) (line : Line) (l : Option Level) :
    lastLevel line (writeFrameEvents t d) l = some true :=
  framesEvents_levels t (writeFrames_ne_nil d) line l

end Sys2Proof.Machine
end

