-- ==== Sys2Proof/Tests/Slice0.lean ====
section
/-! SUPPORT. The model's own tests: expected values from `spec/95_test_vectors.md` (named by their ids) and from the
encoding tables of `spec/30_encoding.md`; and for every statement with hypotheses a state and operands that meet them. -/

namespace Sys2Proof.Tests

open Sys2Proof.Machine

/-! ## Helpers -/

/-- The next state of an outcome. -/
def after : Out → Option State
  | .next s => some s
  | .fault _ => none
  | .refused _ => none

/-- The fault of an outcome. -/
def stopOf : Out → Option Fault
  | .fault r => some r
  | .next _ => none
  | .refused _ => none

/-- The refusal of an outcome. -/
def refusalOf : Out → Option Refusal
  | .refused r => some r
  | .next _ => none
  | .fault _ => none

/-- After `INIT P5, P6` from power-on, with the answer left out. -/
def ready : State := State.reset.beginSession ⟨5⟩ ⟨6⟩

/-- `ready` with a pixel register that has these first bytes, and zeros after them. -/
def withBytes (bytes : List Byte) : State := { ready with buf := Vector.ofFn fun i : Fin 16 => bytes.getD i 0 }

/-- The toy font of `95_test_vectors.md`. -/
def toyFont : Font := fun ch =>
  if ch = 'A' then some [0x7E, 0x11, 0x11, 0x7E]
  else if ch = ' ' then some [0x00, 0x00, 0x00]
  else if ch = 'H' then some [0x7F, 0x08, 0x08, 0x08, 0x7F]
  else if ch = 'I' then some [0x41, 0x41, 0x7F, 0x41, 0x41]
  else none

/-- The left scroll of L2.S11 over the bitmap of "A", at an offset. -/
def scrollingAt (off : Int) : State :=
  { ready.acceptScroll (scrollBitmap toyFont true ['A']) 10 .forward with scrOff := off }

/-- The right scroll of L2.S12 over the bitmap of "A", at an offset. -/
def scrollingRight (off : Int) : State :=
  { ready.acceptScroll (scrollBitmap toyFont true ['A']) 0 .backward with scrOff := off }

/-- L2.F1: power-on and RENDER. -/
def faulted : State := State.reset.raise .notInitialized ⟨0x21, [], rfl⟩

/-- The bytes of the pixel register after an outcome. -/
def bytesAfter (o : Out) : Option (List Byte) := (after o).map fun s => s.buf.toList

/-- The answers after an outcome. -/
def answersAfter (o : Out) : Option (List Response) := (after o).map State.results

/-- The frames that the session's events decode to after an outcome. -/
def framesAfter (o : Out) : Option (List Frame) := (after o).map fun s => decodeTrace s.sessionTrace

/-- An 8 × 16 grid with the cells of a predicate lit. -/
def gridWhere (lit : Nat → Nat → Bool) : List (List Bool) :=
  (List.range 8).map fun r => (List.range 16).map fun c => lit r c

/-- A pattern text of 8 lines of 16 characters with the cells of a predicate `*`. -/
def patternWhere (lit : Nat → Nat → Bool) : Text :=
  ['\n'].intercalate ((List.range 8).map fun r => (List.range 16).map fun c => if lit r c then '*' else '.')

/-! ## Well-formedness: an ill-formed term for each check, refused -/

theorem test_wellFormed_assigned_illegal : (Instr.illegalRequest 0x21 []).wellFormed = false := by decide
theorem test_wellFormed_unassigned_illegal : (Instr.illegalRequest 0x28 [.int 1]).wellFormed = true := by decide
/-- R77: operands of another type, too few and too many are no request. -/
theorem test_readRequest_operand_type : readRequest 0x13 [.bool true] = .error (.mistyped 0x13) := by decide
theorem test_readRequest_operand_missing : readRequest 0x20 [.int 0, .int 0] = .error (.mistyped 0x20) := by decide
theorem test_readRequest_operand_extra : readRequest 0x21 [.int 0] = .error (.mistyped 0x21) := by decide
theorem test_readRequest_set_pixel :
    readRequest 0x20 [.int 0, .int 0, .bool true] = .ok ⟨0x20, [.int 0, .int 0, .bool true], rfl⟩ := by decide
theorem test_exec_refuses_assigned_illegal :
    refusalOf (exec (.illegalRequest 0x21 []) ready) = some (.assignedCode 0x21) := by decide

/-! ## Decoding: a word for every constructor, written out from R75, R64, R65, R68 and R85 to R89 -/

theorem test_decode_init : decodeRequest ⟨0b00000001, [.pin ⟨5⟩, .pin ⟨6⟩], rfl⟩ = .init ⟨5⟩ ⟨6⟩ := by decide
theorem test_decode_writeFrame : decodeRequest ⟨0b00010000, [.ints [1, -1]], rfl⟩ = .writeFrame [1, -1] := by decide
theorem test_decode_turnOn : decodeRequest ⟨0b00010001, [], rfl⟩ = .turnOn := by decide
theorem test_decode_turnOff : decodeRequest ⟨0b00010010, [], rfl⟩ = .turnOff := by decide
theorem test_decode_brightness : decodeRequest ⟨0b00010011, [.int 7], rfl⟩ = .brightness 7 := by decide
theorem test_decode_setPixel :
    decodeRequest ⟨0b00100000, [.int 7, .int 15, .bool true], rfl⟩ = .setPixel 7 15 true := by decide
theorem test_decode_render : decodeRequest ⟨0b00100001, [], rfl⟩ = .render := by decide
theorem test_decode_clear : decodeRequest ⟨0b00100010, [], rfl⟩ = .clear := by decide
theorem test_decode_loadImage : decodeRequest ⟨0b00100011, [.grid [[true]]], rfl⟩ = .loadImage [[true]] := by decide
theorem test_decode_parsePattern :
    decodeRequest ⟨0b00100100, [.text ['*', '\n']], rfl⟩ = .parsePattern ['*', '\n'] := by decide
theorem test_decode_drawRect :
    decodeRequest ⟨0b00100101, [.int 2, .int 3, .int 4, .int 5, .bool true], rfl⟩ = .drawRect 2 3 4 5 true := by decide
theorem test_decode_drawLine :
    decodeRequest ⟨0b00100110, [.int 1, .int 7, .int 6, .int 8], rfl⟩ = .drawLine 1 7 6 8 := by decide
theorem test_decode_readBuffer : decodeRequest ⟨0b00100111, [], rfl⟩ = .readBuffer := by decide
theorem test_decode_transpose :
    decodeRequest ⟨0b00110000, [.ints [128, 0], .int 1], rfl⟩ = .transpose [128, 0] 1 := by decide
theorem test_decode_buildScrollBitmap :
    decodeRequest ⟨0b01000000, [.text ['H', 'I']], rfl⟩ = .buildScrollBitmap ['H', 'I'] := by decide
theorem test_decode_scrollText :
    decodeRequest ⟨0b01000001, [.text ['A'], .int 10, .int 1], rfl⟩ = .scrollText ['A'] 10 1 := by decide
theorem test_decode_illegalRequest : decodeRequest ⟨0b00101000, [.int 1], rfl⟩ = .illegalRequest 0x28 [.int 1] := by decide
theorem test_decode_cmdAutoIncrement : decodeFirstByte 0b01000000 = some .cmdAutoIncrement := by decide
theorem test_decode_cmdAddress0 : decodeFirstByte 0b11000000 = some .cmdAddress0 := by decide
theorem test_decode_cmdDisplayOnDefault : decodeFirstByte 0b10001000 = some .cmdDisplayOnDefault := by decide
theorem test_decode_cmdTurnOn : decodeFirstByte 0b10100000 = some .cmdTurnOn := by decide
theorem test_decode_cmdDisplayOff : decodeFirstByte 0b10000000 = some .cmdDisplayOff := by decide
theorem test_decode_cmdBrightness : decodeFirstByte 0b10001111 = some (.cmdBrightness 7) := by decide
theorem test_decode_reserved_first_byte : decodeFirstByte 0b10010000 = none := by decide
theorem test_decode_wireDataByte :
    decodeFrame [0xC0, 1, 2, 3, 4, 5, 6, 7, 8, 9, 10, 11, 12, 13, 14, 15, 0xC0] =
      some (.cmdAddress0 :: ([1, 2, 3, 4, 5, 6, 7, 8, 9, 10, 11, 12, 13, 14, 15, 0xC0] : List Byte).map .wireDataByte) := by
  decide
theorem test_decode_short_address_frame : decodeFrame [0xC0, 1] = none := by decide
/-- L2.W2. -/
theorem test_decode_sendBit :
    decodeEvents Config.timing [.write .clk false, .write .din true, .micros 2, .write .clk true, .micros 2] =
      some (.sendBit true) := by decide
/-- L2.W3. -/
theorem test_decode_startSignal :
    decodeEvents Config.timing
      [.write .clk false, .micros 1, .write .clk true, .write .din true, .write .din false] = some .startSignal := by decide
/-- L2.W4. -/
theorem test_decode_endSignal :
    decodeEvents Config.timing
      [.write .clk false, .micros 2, .write .din false, .write .clk true, .micros 1, .write .din true] =
        some .endSignal := by decide
/-- L2.W7: the bits of `0xA5` in the order sent. -/
theorem test_decode_sendByte :
    decodeEvents Config.timing ([true, false, true, false, false, true, false, true].flatMap fun b =>
      [.write .clk false, .write .din b, .micros 2, .write .clk true, .micros 2]) = some (.sendByte 0xA5) := by decide
/-- L2.W12: the 51 events of `SEND_COMMAND(0x80)`. -/
theorem test_decode_sendCommand :
    decodeEvents Config.timing
      ([.write .clk false, .micros 1, .write .clk true, .write .din true, .write .din false] ++
        ([true, false, false, false, false, false, false, false].flatMap fun b =>
          [.write .clk false, .write .din b, .micros 2, .write .clk true, .micros 2]) ++
        [.write .clk false, .micros 2, .write .din false, .write .clk true, .micros 1, .write .din true]) =
      some (.sendCommand 0x80) := by decide
/-- R78: SCROLL_TICK has no code, no byte and no event sequence of its own. -/
theorem test_scrollTick_has_no_encoding :
    encodeRequest .scrollTick = none ∧ encodeWireByte .scrollTick = none ∧
      encodeEvents Config.timing .scrollTick = none := by decide
theorem test_table_word_set_pixel : decodeTableWord 8 0b00100000 = some (.setPixel 0 0 false) := by decide
theorem test_table_word_illegal : decodeTableWord 8 0b10101010 = some (.illegalRequest 0xAA []) := by decide

/-! ## The host requests of the wire family -/

/-- L2.W14. -/
theorem test_turnOn : framesAfter (exec .turnOn ready) = some [[0xA0]] := by decide
/-- L2.W15. -/
theorem test_turnOff : framesAfter (exec .turnOff ready) = some [[0x80]] := by decide
/-- L2.W18. -/
theorem test_brightness_7 : framesAfter (exec (.brightness 7) ready) = some [[0x8F]] := by decide
/-- L2.W19. -/
theorem test_brightness_8 :
    after (exec (.brightness 8) ready) = some { ready with results := [⟨.outOfRange, none⟩] } := by decide
/-- L1.6. -/
theorem test_writeFrame_15 :
    after (exec (.writeFrame (List.replicate 15 0)) ready) =
      some { ready with results := [⟨.invalidDimensions, none⟩] } := by decide

set_option maxRecDepth 20000 in
/-- L1.12 and the low 8 bits of R80. -/
theorem test_writeFrame_16 :
    framesAfter (exec (.writeFrame [0x1A5, 2, 3, 4, 5, 6, 7, 8, 9, 10, 11, 12, 13, 14, 15, -1]) ready) =
      some [[0x40], [0xC0, 0xA5, 2, 3, 4, 5, 6, 7, 8, 9, 10, 11, 12, 13, 14, 15, 0xFF], [0x88]] := by decide

/-! ## The requests of the pixel register -/

/-- R97 and L2.B31: a new session on other pins. -/
theorem test_init_again :
    after (exec (.init ⟨7⟩ ⟨8⟩) { withBytes [0xFF, 0xFF] with clk := some true, din := some true, trace := [.micros 1] }) =
      some { ready with
        clkPin := ⟨7⟩, dinPin := ⟨8⟩, trace := [.micros 1], results := [⟨.ok, none⟩]
        sessions := [⟨⟨5⟩, ⟨6⟩, 0⟩, ⟨⟨7⟩, ⟨8⟩, 1⟩] } := by decide
/-- L2.F9. -/
theorem test_init_equal_pins :
    after (exec (.init ⟨5⟩ ⟨5⟩) State.reset) = some { State.reset with results := [⟨.outOfRange, none⟩] } := by decide
/-- P1: the second SET_PIXEL. -/
theorem test_setPixel_7_15 :
    bytesAfter (exec (.setPixel 7 15 true) (withBytes [0x01])) = some (0x01 :: List.replicate 14 0 ++ [0x80]) := by decide
/-- L1.7: row 8 and column -1 leave the register. -/
theorem test_setPixel_outside :
    bytesAfter (exec (.setPixel 8 0 true) (withBytes [0x5A])) = some (0x5A :: List.replicate 15 0) ∧
      answersAfter (exec (.setPixel 2 (-1) true) (withBytes [0x5A])) = some [⟨.outOfRange, none⟩] := by decide
set_option maxRecDepth 20000 in
/-- R100, its example. -/
theorem test_render :
    framesAfter (exec .render (withBytes [0x01])) = some [[0x40], 0xC0 :: 0x01 :: List.replicate 15 0, [0x88]] := by decide
set_option maxRecDepth 20000 in
/-- R101, its example. -/
theorem test_clear :
    framesAfter (exec .clear (withBytes [0xFF])) = some [[0x40], 0xC0 :: List.replicate 16 0, [0x88]] := by decide
/-- L1.13. -/
theorem test_loadImage :
    bytesAfter (exec (.loadImage (gridWhere fun r c => r = 7 && c = 15)) (withBytes [0xFF])) =
      some (List.replicate 15 0 ++ [0x80]) := by decide
/-- L1.8. -/
theorem test_parsePattern_diagonal :
    answersAfter (exec (.parsePattern (patternWhere fun r c => r = c)) ready) =
      some [⟨.ok, some ([1, 2, 4, 8, 0x10, 0x20, 0x40, 0x80] ++ List.replicate 8 0)⟩] := by decide
/-- L2.B14: a ninth, empty line. -/
theorem test_parsePattern_trailing_line_feed :
    after (exec (.parsePattern (patternWhere (fun r c => r = c) ++ ['\n'])) ready) =
      some { ready with results := [⟨.invalidDimensions, some []⟩] } := by decide
/-- L1.4. -/
theorem test_drawRect_2_2_4_3 :
    bytesAfter (exec (.drawRect 2 2 4 3 true) (withBytes (List.replicate 16 1))) =
      some ([1, 1, 0x1D, 0x1D, 0x1D, 0x1D] ++ List.replicate 10 1) := by decide
/-- L2.B19: clipped. -/
theorem test_drawRect_clipped :
    bytesAfter (exec (.drawRect 14 6 4 4 true) ready) = some (List.replicate 14 0 ++ [0xC0, 0xC0]) := by decide
/-- L2.B24: vertical, endpoints reversed. -/
theorem test_drawLine_vertical :
    bytesAfter (exec (.drawLine 6 7 1 7) ready) = some (List.replicate 7 0 ++ 0x7E :: List.replicate 8 0) := by decide
/-- L2.B29: a diagonal. -/
theorem test_drawLine_diagonal :
    after (exec (.drawLine 0 0 7 15) ready) = some { ready with results := [⟨.unsupported, none⟩] } := by decide
/-- L2.B30. -/
theorem test_readBuffer :
    after (exec .readBuffer (withBytes [1, 2])) =
      some { withBytes [1, 2] with results := [⟨.ok, some (1 :: 2 :: List.replicate 14 0)⟩] } := by decide

/-! ## The transpose engine -/

/-- L2.T6: a 5-wide 'H'. -/
theorem test_transpose_5 :
    answersAfter (exec (.transpose
      ([0x88, 0x88, 0x88, 0xF8, 0x88, 0x88, 0x88].flatMap (fun v => [v, 0, 0, 0, 0]) ++ [0]) 5) ready) =
        some [⟨.ok, some [0x7F, 0x08, 0x08, 0x08, 0x7F]⟩] := by decide
/-- L2.T8 and L2.T9: the order of the checks, and 57 bytes needed. -/
theorem test_transpose_rejected :
    answersAfter (exec (.transpose [] (-1)) ready) = some [⟨.outOfRange, some []⟩] ∧
      answersAfter (exec (.transpose (List.replicate 56 0) 8) ready) = some [⟨.invalidDimensions, some []⟩] := by decide
/-- L2.T14. -/
theorem test_untranspose_5 :
    untranspose [0x7F, 0x08, 0x08, 0x08, 0x7F] 5 =
      ([0x88, 0x88, 0x88, 0xF8, 0x88, 0x88, 0x88, 0].flatMap fun v => [v, 0, 0, 0, 0]) := by decide

/-! ## The scroll -/

/-- L2.S3. -/
theorem test_scrollBitmap_HI :
    scrollBitmap toyFont true ['H', 'I'] =
      List.replicate 16 0 ++ [0x7F, 8, 8, 8, 0x7F, 0, 0x41, 0x41, 0x7F, 0x41, 0x41] ++ List.replicate 16 0 := by decide
/-- L2.S4 to L2.S6: folding, no folding, no glyph. -/
theorem test_scrollBitmap_fold :
    scrollBitmap toyFont true ['a'] = scrollBitmap toyFont true ['A'] ∧
      scrollBitmap toyFont false ['a'] = List.replicate 35 0 ∧ scrollBitmap toyFont true ['?'] = List.replicate 35 0 := by
  decide
/-- L2.S2. -/
theorem test_buildScrollBitmap_empty :
    after (exec (.buildScrollBitmap []) ready) =
      some { ready with results := [⟨.ok, some (List.replicate 32 0)⟩] } := by decide
/-- R117 for the empty text, L = 32: a right scroll from offset 16 to -16, with no answer yet. -/
theorem test_scrollText_right :
    (after (exec (.scrollText [] 0 1) ready)).map (fun s => (s.mode, s.scrOff, s.scrLast, s.scrStep, s.scrSpeed)) =
        some (.scrolling, 16, -16, .backward, 0) ∧
      answersAfter (exec (.scrollText [] 0 1) ready) = some [] := by decide
/-- L2.S9. -/
theorem test_scrollText_direction :
    after (exec (.scrollText [] 10 2) ready) = some { ready with results := [⟨.outOfRange, none⟩] } := by decide
/-- L2.S11 at offset 10. -/
theorem test_scrollTick_offset_10 :
    bytesAfter (exec .scrollTick (scrollingAt 10)) =
        some (List.replicate 6 0 ++ [0x7E, 0x11, 0x11, 0x7E] ++ List.replicate 6 0) ∧
      (after (exec .scrollTick (scrollingAt 10))).map (fun s => (s.mode, s.scrOff)) = some (.scrolling, 11) := by decide
/-- L2.S12 at offset -16: the last tick answers `Ok`. -/
theorem test_scrollTick_last :
    bytesAfter (exec .scrollTick (scrollingRight (-16))) = some (List.replicate 16 0) ∧
      (after (exec .scrollTick (scrollingRight (-16)))).map (fun s => (s.mode, s.scrOff, s.results)) =
        some (.idle, -16, [⟨.ok, none⟩]) := by decide

/-! ## The internal primitives and the wire commands -/

/-- L2.W1. -/
theorem test_sendBit :
    (after (exec (.sendBit false) ready)).map (fun s => (s.trace, s.clk, s.din)) =
      some ([.write .clk false, .write .din false, .micros 2, .write .clk true, .micros 2], some true, some false) := by
  decide
/-- L2.W11. -/
theorem test_sendByte :
    (after (exec (.sendByte 0x1A5) ready)).map (fun s => dinLevels s.trace) =
      some [true, false, true, false, false, true, false, true] := by decide
/-- L2.W3, L2.W4: the levels after START and END. -/
theorem test_startSignal :
    (after (exec .startSignal ready)).map (fun s => (s.trace.length, s.clk, s.din)) =
      some (5, some true, some false) := by decide
theorem test_endSignal :
    (after (exec .endSignal ready)).map (fun s => (s.trace.length, s.clk, s.din)) = some (6, some true, some true) := by
  decide
/-- R89, its example. -/
theorem test_sendCommand : framesAfter (exec (.sendCommand 0x80) ready) = some [[0x80]] := by decide
/-- R64: each command byte on the wire. -/
theorem test_cmdAutoIncrement : framesAfter (exec .cmdAutoIncrement ready) = some [[0x40]] := by decide
theorem test_cmdDisplayOnDefault : framesAfter (exec .cmdDisplayOnDefault ready) = some [[0x88]] := by decide
theorem test_cmdTurnOn : framesAfter (exec .cmdTurnOn ready) = some [[0xA0]] := by decide
theorem test_cmdDisplayOff : framesAfter (exec .cmdDisplayOff ready) = some [[0x80]] := by decide
theorem test_cmdBrightness : framesAfter (exec (.cmdBrightness 5) ready) = some [[0x8D]] := by decide
/-- R58: `0xC0` and one data byte, closed by an end condition, are one frame. -/
theorem test_cmdAddress0_and_wireDataByte :
    framesAfter (execAll [.cmdAddress0, .wireDataByte 0x5A, .endSignal] ready) = some [[0xC0, 0x5A]] := by decide

/-! ## Faults, the step and the host -/

/-- L2.F1. -/
theorem test_notInitialized : after (exec .render State.reset) = some faulted := by decide
/-- L2.F2: the fault is sticky. -/
theorem test_sticky : stopOf (step { faulted with host := [.issue ⟨0x01, [.pin ⟨5⟩, .pin ⟨6⟩], rfl⟩] }) = some .quiescent := by
  decide
/-- L2.F3: an unassigned code before INIT. -/
theorem test_illegalRequest :
    after (exec (.illegalRequest 0x05 []) State.reset) =
      some { State.reset with fault := some ⟨.illegalRequest, ⟨0x05, [], rfl⟩⟩ } := by decide
/-- L2.F5: a request during a scroll, with the request recorded. -/
theorem test_busyViolation :
    after (exec (.setPixel 0 0 true) (scrollingAt 3)) =
      some { scrollingAt 3 with fault := some ⟨.busyViolation, ⟨0x20, [.int 0, .int 0, .bool true], rfl⟩⟩ } := by decide
/-- R118: no tick without a scroll. -/
theorem test_scrollTick_idle : stopOf (exec .scrollTick ready) = some .tickNotEnabled := by decide
/-- The word of a request is what the next step runs, with zero operands. -/
theorem test_withFetchWord_setPixel :
    bytesAfter (step ((withBytes [0xFF]).withFetchWord 8 0b00100000)) = some (0xFE :: List.replicate 15 0) := by decide
theorem test_withFetchWord_init :
    answersAfter (step (State.reset.withFetchWord 8 0b00000001)) = some [⟨.outOfRange, none⟩] := by decide
/-- R137: a waiting request lets the scroll go on. -/
theorem test_issueWhenReady_waits :
    (after (step { scrollingAt 0 with host := [.issueWhenReady ⟨0x27, [], rfl⟩] })).map (fun s => (s.scrOff, s.host)) =
      some (1, [.issueWhenReady ⟨0x27, [], rfl⟩]) := by decide
/-- P6: the pins of the first session keep their levels while the second drives its own (R152). -/
theorem test_old_pins_keep_levels :
    (after (execAll [.turnOn, .init ⟨7⟩ ⟨8⟩] ready)).map (fun s => (s.pinLevel ⟨5⟩, s.pinLevel ⟨7⟩)) =
      some (some true, none) := by decide
/-- R36. -/
theorem test_reset_views :
    State.reset.pixelRegister = none ∧ State.reset.pins = none ∧ State.reset.scroll = none := by decide

/-! ## The receiver, the encoder phases and the assembler -/

/-- L2.W13: a frame decodes from other line levels too. -/
theorem test_receiver_start_levels :
    (receiveAll { Receiver.start with c := some true, d := some false } (commandFrame Config.timing 0x5A)).frames =
        [[0x5A]] ∧
      (receiveAll { Receiver.start with d := some false } (commandFrame Config.timing 0x5A)).frames = [[0x5A]] := by
  decide
/-- R73: a write of the address frame without the mode frame before it changes nothing shown. -/
theorem test_display_reading :
    displayAfter none [[0x40], 0xC0 :: List.replicate 16 7, [0x88], 0xC0 :: List.replicate 16 9] =
      some (List.replicate 16 7) := by decide
/-- R95: the first six phases of a frame. -/
theorem test_encoder_first_phases :
    (encoderRun Config.timing 7 ⟨[[0x80]], .s0⟩).1 =
      [.write .clk false, .micros 1, .write .clk true, .write .din true, .write .din false,
        .write .clk false, .write .din true] := by decide
/-- P1 in the syntax of R82. -/
theorem test_assemble :
    assemble ["INIT P5, P6          ; 0x01(P5, P6)".toList, "SET_PIXEL 7, 15, 1".toList, "; a comment".toList,
        "BRIGHTNESS -1".toList, "WRITE_FRAME [1, 0x8F]".toList, "READ_BUFFER".toList] =
      some [⟨0x01, [.pin ⟨5⟩, .pin ⟨6⟩], rfl⟩, ⟨0x20, [.int 7, .int 15, .bool true], rfl⟩, ⟨0x13, [.int (-1)], rfl⟩,
        ⟨0x10, [.ints [1, 0x8F]], rfl⟩, ⟨0x27, [], rfl⟩] := by decide
/-- The first step of P1's program from power-on. -/
theorem test_program_from_reset :
    (after (step { State.reset with host := programTurns [⟨0x01, [.pin ⟨5⟩, .pin ⟨6⟩], rfl⟩, ⟨0x21, [], rfl⟩] })).map
        (fun s => (s.pins, s.results, s.host)) =
      some (some (⟨5⟩, ⟨6⟩), [⟨.ok, none⟩], [.issueWhenReady ⟨0x21, [], rfl⟩]) := by decide
theorem test_assemble_text_and_grid :
    assembleLine "SCROLL_TEXT \"A\\n\", 10, 0".toList = some [⟨0x41, [.text ['A', '\n'], .int 10, .int 0], rfl⟩] ∧
      assembleLine "LOAD_IMAGE [\"10\", \"01\"]".toList = some [⟨0x23, [.grid [[true, false], [false, true]]], rfl⟩] ∧
      assembleLine "SET_PIXEL 1, 2".toList = none := by decide

/-! ## Witnesses: for every statement with hypotheses, a state and operands that meet them together -/

/-- The hypothesis of every statement about a request that runs. -/
theorem witness_ready : Ready ready := ⟨rfl, rfl, rfl⟩

/-- The hypothesis of every statement about the internal primitives and the wire commands. -/
theorem witness_no_fault : ready.fault = none ∧ State.reset.fault = none := by decide

/-- A row of the table, operands that are not of its types, and a state without a fault whose host issues. -/
theorem witness_OnlyMistypedRequestsAreNotRead :
    assigned (⟨0x13, [.int 7], rfl⟩ : Request).code = true ∧
      assigned 0x13 = true ∧ signature 0x13 ≠ some (([.bool true] : List Operand).map operandType) ∧
      { scrollingAt 20 with host := [.issueWhenReady ⟨0x27, [], rfl⟩] }.fault = none := by decide

/-- The boundary codes of the list of R79. -/
theorem witness_UnassignedCodesAreIllegal :
    ([0x00, 0x02, 0x0F, 0x14, 0x1F, 0x28, 0x2F, 0x31, 0x3F, 0x42, 0xFF] : List Byte).all (fun c => !assigned c) = true ∧
      ([0x01, 0x10, 0x13, 0x20, 0x27, 0x30, 0x40, 0x41] : List Byte).all assigned = true := by decide

theorem witness_WireFramesDecodeToTheirBytes :
    decodeFrame [0x8F] = some [.cmdBrightness 7] ∧
      decodeFrame (0xC0 :: List.replicate 16 0xC0) = some (.cmdAddress0 :: List.replicate 16 (.wireDataByte 0xC0)) := by
  decide

theorem witness_PrimitiveEventsReadBack :
    (encodeEvents Config.timing (.sendByte (-1))).isSome = true ∧ (encodeEvents Config.timing .startSignal).isSome = true ∧
      (encodeEvents Config.timing .endSignal).isSome = true ∧
      (encodeEvents Config.timing (.sendBit true)).isSome = true ∧
      (encodeEvents Config.timing (.sendCommand 0x180)).isSome = true := by decide

/-- One state for each of the three clauses. -/
theorem witness_StepRunsTheDecodedRequest :
    decodeRequest ⟨0x27, [], rfl⟩ = .readBuffer ∧ Instr.readBuffer.wellFormed = true ∧
      { ready with host := [.issue ⟨0x27, [], rfl⟩] }.fault = none ∧
      { ready with host := [.issueWhenReady ⟨0x27, [], rfl⟩] }.mode = .idle ∧
      { scrollingAt 20 with host := [.issueWhenReady ⟨0x27, [], rfl⟩] }.mode = .scrolling := by decide

/-- One state for each of the four clauses. -/
theorem witness_QuietTurnRunsTheSequencer :
    (scrollingAt 0).fault = none ∧ (scrollingAt 0).host = [] ∧ (scrollingAt 0).mode = .scrolling ∧
      ready.host = [] ∧ ready.mode = .idle ∧
      { scrollingAt 20 with host := [.pass] }.mode = .scrolling ∧ { ready with host := [.pass] }.mode = .idle := by decide

/-- One state and request for each of the five cases. -/
theorem witness_AdmissionDecidesInOrder :
    encodeRequest (.setPixel 0 0 true) = some ⟨0x20, [.int 0, .int 0, .bool true], rfl⟩ ∧
      (Instr.setPixel 0 0 true).wellFormed = true ∧ faulted.fault ≠ none ∧
      encodeRequest (.illegalRequest 0x28 []) = some ⟨0x28, [], rfl⟩ ∧ (Instr.illegalRequest 0x28 []).wellFormed = true ∧
      (scrollingAt 0).mode = .scrolling ∧ State.reset.initialized = false ∧ ready.initialized = true ∧
      encodeRequest (.init ⟨5⟩ ⟨6⟩) = some ⟨0x01, [.pin ⟨5⟩, .pin ⟨6⟩], rfl⟩ := by decide

/-- A fault recorded, and an instruction that records one. -/
theorem witness_FaultsAreStickyAndPrecise :
    faulted.fault ≠ none ∧ (after (exec .render State.reset)).map State.fault ≠ some State.reset.fault := by decide

theorem witness_RejectedRequestsChangeNothing :
    (after (exec (.brightness 8) ready)).map State.results = some (ready.results ++ [⟨.outOfRange, none⟩]) ∧
      Result.outOfRange ≠ Result.ok := by decide

theorem witness_EachRequestAnswersAsTabled :
    hostRequest (.scrollText [] 0 1) = true ∧ (Instr.scrollText [] 0 1).wellFormed = true ∧
      hostRequest (.parsePattern []) = true := by decide

theorem witness_DutifulHostMeetsNoFault :
    { ready with host := [.issueWhenReady ⟨0x21, [], rfl⟩] }.fault = none ∧
      { ready with host := [.issueWhenReady ⟨0x21, [], rfl⟩] }.initialized = true ∧
      Dutiful { ready with host := [.issueWhenReady ⟨0x21, [], rfl⟩] }.host :=
  ⟨rfl, rfl, fun _ h => ⟨⟨0x21, [], rfl⟩, by simpa using h, by decide⟩⟩

/-- Operands below 0 and above 255. -/
theorem witness_ByteAndCommandEvents :
    (((0xFF : Byte).toNat : Int) = (-1) % 256) ∧ (((0xA5 : Byte).toNat : Int) = 0x1A5 % 256) := by decide

/-- The highest and the lowest brightness byte. -/
theorem witness_WireCommandsAreSent :
    (0x8F : Byte).toNat = 0x88 + (7 : BitVec 3).toNat ∧ (0x88 : Byte).toNat = 0x88 + (0 : BitVec 3).toNat := by decide

/-- Lengths 15, 17 and 16, with elements outside 0..255. -/
theorem witness_WriteFrameSendsThreeFrames :
    (List.replicate 15 (0 : Int)).length ≠ 16 ∧ (List.replicate 17 (0 : Int)).length ≠ 16 ∧
      (List.replicate 16 (-1 : Int)).length = 16 ∧
      (List.replicate 16 (0xFF : Byte)).map (fun v => (v.toNat : Int)) = (List.replicate 16 (-1 : Int)).map (· % 256) := by
  decide

/-- Levels just outside and just inside. -/
theorem witness_BrightnessSendsItsLevel :
    ((-1 : Int) < 0) ∧ ((8 : Int) > 7) ∧ ((0x88 : Byte).toNat : Int) = 0x88 + 0 ∧
      ((0x8F : Byte).toNat : Int) = 0x88 + 7 := by decide

theorem witness_FramesDecodeToTheirBytes : ([0x40] : Frame) ≠ [] ∧ Receiver.start.inFrame = false := by decide

theorem witness_EncoderPhasesEmitTheFrames : ∀ f ∈ writeFrames (List.replicate 16 7), f ≠ [] := by decide

theorem witness_EventCountsAndLeastTimes : (List.replicate 16 (7 : Byte)).length = 16 := by decide

/-- Before and after the first INIT. -/
theorem witness_InitBeginsASession :
    State.reset.fault = none ∧ State.reset.mode = .idle ∧ ready.mode = .idle ∧ (⟨5⟩ : PinId) ≠ ⟨6⟩ := by decide

/-- R99's corner coordinates. -/
theorem witness_SetPixelSetsOnePixel :
    ((-1 : Int) < 0) ∧ ((8 : Int) > 7) ∧ ((16 : Int) > 15) ∧ (0 : Int) ≤ 7 ∧ (7 : Int) ≤ 7 ∧ (15 : Int) ≤ 15 := by decide

/-- 8 rows of 16, 7 rows, and a row of 15. -/
theorem witness_LoadImageReplacesAndRenders :
    ((gridWhere fun _ _ => true).length = 8 ∧ ∀ row ∈ gridWhere fun _ _ => true, row.length = 16) ∧
      ¬((List.replicate 7 (List.replicate 16 true)).length = 8) ∧
      ¬(∀ row ∈ List.replicate 15 true :: List.replicate 7 (List.replicate 16 true), row.length = 16) := by decide

/-- 8 lines of 16, and 9 lines. -/
theorem witness_ParsePatternReadsItsLines :
    List.replicate 8 (List.replicate 16 '*') ≠ [] ∧
      (∀ l ∈ List.replicate 8 (List.replicate 16 '*'), '\n' ∉ l ∧ l.length = 16) ∧
      List.replicate 9 (List.replicate 16 '.') ≠ [] ∧ (List.replicate 9 (List.replicate 16 '.')).length ≠ 8 := by decide

/-- A horizontal segment, a vertical one, one point, and a diagonal. -/
theorem witness_DrawLineLightsTheSegment :
    ((3 : Int) = 3 ∨ (2 : Int) = 5) ∧ ((6 : Int) = 1 ∨ (7 : Int) = 7) ∧ (¬((0 : Int) = 7) ∧ ¬((0 : Int) = 15)) := by decide

theorem witness_TransposeMovesEachBit :
    ((-1 : Int) < 0) ∧ (((List.replicate 56 (0 : Int)).length : Int) < 7 * 8 + (8 - 1) / 8 + 1) ∧
      ((7 * 8 + (8 - 1) / 8 + 1 : Int) ≤ ((List.replicate 57 (0 : Int)).length : Int)) := by decide

/-- The 5-column pattern of L2.T14, whose unused bits are 0. -/
theorem witness_TransposeRoundTrip :
    let p : List Byte := [0x88, 0x88, 0x88, 0xF8, 0x88, 0x88, 0x88, 0].flatMap fun v => [v, 0, 0, 0, 0]
    p.length = 8 * 5 ∧
      ∀ i < 8 * 5, ∀ b < 8, 5 ≤ 8 * (i % 5) + (7 - b) → (p.getD i 0).getLsbD b = false := by decide

theorem witness_TransposeIsNotItsOwnInverse : 57 ≤ (List.replicate 57 (0x80 : Int)).length := by decide

theorem witness_TransposeAgreesWithLoadImage :
    (gridWhere fun r c => r = c).length = 8 ∧ ∀ row ∈ gridWhere fun r c => r = c, row.length = 16 := by decide

/-- A character with a glyph, one that is folded, and one without a glyph. -/
theorem witness_GlyphLookup :
    toyFont 'A' = some [0x7E, 0x11, 0x11, 0x7E] ∧ 97 ≤ 'a'.toNat ∧ 'z'.toNat ≤ 122 ∧ 'A'.toNat + 32 = 'a'.toNat ∧
      toyFont '?' = none ∧ toyFont 'Z' = none ∧ toyFont ' ' = some [0, 0, 0] := by decide

/-- The machine's own glyph function. -/
theorem witness_ScrollBitmapIsPaddedText :
    ∀ ch : Char, glyphOf Config.font Config.foldCase ch =
      match Config.font (if Config.foldCase = true ∧ 'a' ≤ ch ∧ ch ≤ 'z' then Char.ofNat (ch.toNat - 32) else ch) with
      | some columns => columns
      | none => (Config.font ' ').getD [] := fun _ => rfl

/-- Speed -1 and directions -1 and 2 are rejected; speed 0 with directions 0 and 1 is accepted. -/
theorem witness_ScrollTextIsAccepted :
    ((-1 : Int) < 0) ∧ ((2 : Int) ≠ 0 ∧ (2 : Int) ≠ 1) ∧ ((-1 : Int) ≠ 0 ∧ (-1 : Int) ≠ 1) ∧ (0 : Int) ≤ 0 := by decide

/-- The last offset of the left scroll of L2.S11 and the one before it. -/
theorem witness_ScrollTickShowsOneWindow :
    (scrollingAt 20).fault = none ∧ (scrollingAt 20).mode = .scrolling ∧ (scrollingAt 20).scrOff = (scrollingAt 20).scrLast ∧
      (scrollingAt 19).scrOff ≠ (scrollingAt 19).scrLast ∧ ready.mode = .idle := by decide

theorem witness_ScrollRunsToItsEnd : Ready ready ∧ ready.host = [] ∧ (0 : Int) ≤ 10 := ⟨⟨rfl, rfl, rfl⟩, rfl, by decide⟩

/-- Two states that differ in the pins and the pixel register before INIT. -/
theorem witness_StepIgnoresUnsetRegisters :
    SameButUnset State.reset { State.reset with clkPin := ⟨3⟩, buf := Vector.replicate 16 9, scrOff := 4 } ∧
      State.reset ≠ { State.reset with clkPin := ⟨3⟩, buf := Vector.replicate 16 9, scrOff := 4 } :=
  ⟨⟨rfl, rfl, rfl, rfl, rfl, rfl, rfl, rfl, rfl, rfl, rfl, rfl⟩, by decide⟩

theorem witness_RegistersAreWrittenAsTabled :
    bytesAfter (exec (.setPixel 0 0 true) ready) ≠ some ready.buf.toList ∧
      (after (exec (.scrollText [] 0 0) ready)).map State.mode ≠ some ready.mode := by decide

theorem witness_TraceIsAppendOnly :
    (after (exec .turnOn ready)).isSome = true ∧
      (after (step { ready with host := [.issue ⟨0x11, [], rfl⟩] })).isSome = true := by decide

theorem witness_RequestsSendWholeFrames :
    encodeRequest .turnOff = some ⟨0x12, [], rfl⟩ ∧ (after (exec .turnOff ready)).isSome = true := by decide

theorem witness_RendersEndWithDisplayOn :
    (List.replicate 16 (0 : Int)).length = 16 ∧ (scrollingAt 0).fault = none ∧ (scrollingAt 0).mode = .scrolling := by decide

theorem witness_RequestsAreIdempotentOnTheState :
    hostRequest (.drawRect 0 0 1 1 true) = true ∧ (Instr.drawRect 0 0 1 1 true).wellFormed = true ∧
      (after (exec (.drawRect 0 0 1 1 true) ready)).map State.fault = some none := by decide

/-- The state after INIT meets every invariant together. -/
theorem witness_invariants_ready :
    PinsDistinct ready ∧ SessionsAgree ready ∧ LinesRest ready ∧ LevelsTrack ready ∧ FramesClosed ready ∧
      ScrollBounded ready :=
  ⟨fun _ => by decide, ⟨fun h => by simp [ready, State.beginSession] at h, fun _ => ⟨[], 0, rfl, by decide, by simp⟩⟩,
    .inl ⟨rfl, rfl⟩, ⟨rfl, rfl⟩, rfl, fun h => by simp [ready, State.beginSession, State.reset] at h⟩

/-- A running scroll, at its first, a middle and its last offset, and a right scroll left of its bitmap, are in their
bounds. -/
theorem witness_StepKeepsScrollBounds :
    ScrollBounded (scrollingAt 0) ∧ ScrollBounded (scrollingAt 10) ∧ ScrollBounded (scrollingAt 20) ∧
      ScrollBounded (scrollingRight (-16)) := by
  refine ⟨fun _ => ?_, fun _ => ?_, fun _ => ?_, fun _ => ?_⟩ <;>
    exact ⟨by decide, by decide, by decide, And.intro (by decide) (by decide)⟩

/-- A step from the state after INIT, and an INIT there, both answer a next state. -/
theorem witness_steps :
    (after (step { ready with host := [.issue ⟨0x11, [], rfl⟩] })).isSome = true ∧
      (after (exec (.init ⟨7⟩ ⟨8⟩) ready)).isSome = true ∧ (⟨9⟩ : PinId) ≠ ready.clkPin ∧
      (⟨9⟩ : PinId) ≠ ready.dinPin := by decide

end Sys2Proof.Tests
end

section
/-! PROOF. A turn in which the host issues nothing (R18, R138): the sequencer's turn by the mode of the scroll, and the
step as that turn. -/

namespace Sys2Proof.Machine

/-- While a scroll runs, the sequencer's turn is its tick (R18). -/
theorem quietTurn_of_scrolling {s : State} (hm : s.mode = .scrolling) : quietTurn s = exec .scrollTick s := by
  simp only [quietTurn, hm]

/-- With no scroll running, nothing happens in the sequencer's turn (R138). -/
theorem quietTurn_of_idle {s : State} (hm : s.mode = .idle) : quietTurn s = .next s := by
  simp only [quietTurn, hm]

/-- A block that is not quiescent takes a turn (R130). -/
theorem step_eq_runTurn {s : State} (hf : s.fault = none) : step s = runTurn s := by
  simp [step, hf]

/-- With no turn of the host left, the step is the sequencer's. -/
theorem step_of_host_nil {s : State} (hf : s.fault = none) (hh : s.host = []) : step s = quietTurn s := by
  rw [step_eq_runTurn hf]
  simp only [runTurn, hh]

/-- A turn that passes is taken, and the step is the sequencer's. -/
theorem step_of_host_pass {s : State} {rest : List HostTurn} (hf : s.fault = none) (hh : s.host = .pass :: rest) :
    step s = quietTurn { s with host := rest } := by
  rw [step_eq_runTurn hf]
  simp only [runTurn, hh]

/-- Settles O9, from the step as the sequencer's turn and that turn in each mode. -/
theorem quietTurnRunsTheSequencer : Obligations.QuietTurnRunsTheSequencer := by
  intro s rest hf
  refine ⟨fun hh hm => ?scrolling, fun hh hm => ?idle, fun hh hm => ?passScrolling, fun hh hm => ?passIdle⟩
  case scrolling => exact (step_of_host_nil hf hh).trans (quietTurn_of_scrolling hm)
  case idle => exact (step_of_host_nil hf hh).trans (quietTurn_of_idle hm)
  case passScrolling => exact (step_of_host_pass hf hh).trans (quietTurn_of_scrolling hm)
  case passIdle => exact (step_of_host_pass hf hh).trans (quietTurn_of_idle hm)

end Sys2Proof.Machine
end

section
/-! PROOF. The font's constraints (R9), the case folding (R10) and the glyph of a character (R115). -/

namespace Sys2Proof

@[simp] theorem Config.font_space : Config.font ' ' = some Config.glyphSpace := rfl

@[simp] theorem Config.font_H : Config.font 'H' = some Config.glyphH.toList := rfl

@[simp] theorem Config.font_I : Config.font 'I' = some Config.glyphI.toList := rfl

namespace Machine

/-- The lower case letters that folding changes, by their codes (R115). -/
theorem foldChar_eq (fold : Bool) (ch : Char) : foldChar fold ch =
    if fold = true ∧ 97 ≤ ch.toNat ∧ ch.toNat ≤ 122 then Char.ofNat (ch.toNat - 32) else ch := by
  have hcodes : ('a' ≤ ch ∧ ch ≤ 'z') ↔ (97 ≤ ch.toNat ∧ ch.toNat ≤ 122) := Iff.rfl
  simp only [foldChar, hcodes]

/-- Without folding, and outside the lower case letters, a character is looked up as it is (R115). -/
theorem foldChar_of_not_folded {fold : Bool} {ch : Char} (h : ¬(fold = true ∧ 97 ≤ ch.toNat ∧ ch.toNat ≤ 122)) :
    foldChar fold ch = ch := by
  rw [foldChar_eq, if_neg h]

/-- With folding, a lower case letter is looked up as the letter 32 codes before it, its upper case (R115). -/
theorem foldChar_of_lowerCase {ch upper : Char} (hlo : 97 ≤ ch.toNat) (hhi : ch.toNat ≤ 122)
    (hup : upper.toNat + 32 = ch.toNat) : foldChar true ch = upper := by
  rw [foldChar_eq, if_pos ⟨rfl, hlo, hhi⟩, ← hup, Nat.add_sub_cancel, Char.ofNat_toNat]

/-- The glyph of a character is the font's for the character looked up (R115). -/
theorem glyphOf_of_font_some {font : Font} {fold : Bool} {ch : Char} {g : Glyph} (h : font (foldChar fold ch) = some g) :
    glyphOf font fold ch = g := by
  simp only [glyphOf, h]

/-- Where the font has no glyph for the character looked up, the space's is the default (R115). -/
theorem glyphOf_of_font_none {font : Font} {fold : Bool} {ch : Char} {space : Glyph}
    (h : font (foldChar fold ch) = none) (hspace : font ' ' = some space) : glyphOf font fold ch = space := by
  simp only [glyphOf, h, hspace, Option.getD_some]

/-- Settles O41: the three glyphs that R9 constrains, and the lookup by whether the character is folded and whether the
font has a glyph for it. -/
theorem glyphLookup : Obligations.GlyphLookup := by
  refine ⟨by simp, by simp, by simp, ?plain, ?folded, ?plainDefault, ?foldedDefault⟩
  case plain =>
    intro font fold ch g hch hg
    exact glyphOf_of_font_some ((foldChar_of_not_folded hch).symm ▸ hg)
  case folded =>
    intro font ch upper g hlo hhi hup hg
    exact glyphOf_of_font_some ((foldChar_of_lowerCase hlo hhi hup).symm ▸ hg)
  case plainDefault =>
    intro font fold ch space hch hnone hspace
    exact glyphOf_of_font_none ((foldChar_of_not_folded hch).symm ▸ hnone) hspace
  case foldedDefault =>
    intro font ch upper space hlo hhi hup hnone hspace
    exact glyphOf_of_font_none ((foldChar_of_lowerCase hlo hhi hup).symm ▸ hnone) hspace

end Machine
end Sys2Proof
end

section
/-! PROOF. The step as one effect, and what every step keeps: a property that does not see the host's turns, and that
every effect of a request or a tick keeps, is kept by every step. -/

namespace Sys2Proof.Machine

/-- A step takes the host's turn, and then does nothing or what one request or one tick does (R18). -/
theorem step_effect {s t : State} (h : step s = .next t) :
    ∃ turns : List HostTurn, t = { s with host := turns } ∨
      ∃ i, (encodeRequest i = none → i = .scrollTick) ∧ Effect i { s with host := turns } t := by
  obtain ⟨_, turns, ⟨_, rfl⟩ | ⟨hm, rfl⟩ | ⟨r, hr⟩⟩ := step_cases h
  · exact ⟨turns, .inl rfl⟩
  · exact ⟨turns, .inr ⟨.scrollTick, fun _ => rfl, .ticked rfl hm⟩⟩
  · obtain ⟨_, hrequest, _⟩ := decodeRequest_isRequest r
    obtain ⟨_, heffect⟩ := exec_cases hr
    exact ⟨turns, .inr ⟨_, fun hnone => absurd hnone hrequest, heffect⟩⟩

/-- What taking a turn and the effects of requests and ticks keep, every step keeps. -/
theorem step_keeps {P : State → Prop} (hturns : ∀ s turns, P s → P { s with host := turns })
    (heffect : ∀ {i s t}, (encodeRequest i = none → i = .scrollTick) → Effect i s t → P s → P t) {s t : State}
    (h : step s = .next t) (hs : P s) : P t := by
  obtain ⟨turns, rfl | ⟨i, hi, he⟩⟩ := step_effect h
  · exact hturns s turns hs
  · exact heffect hi he (hturns s turns hs)

end Sys2Proof.Machine
end

section
/-! PROOF. The trace only grows at its end (R31). -/

namespace Sys2Proof.Machine

/-- Every effect appends events to the trace, or none (R31). -/
theorem Effect.trace_append {i : Instr} {s t : State} (h : Effect i s t) : ∃ es, t.trace = s.trace ++ es := by
  cases h with
  | raised | answered | wrote | began | accepted => exact ⟨[], by simp⟩
  | sent b fs => exact ⟨fs.flatMap (frameEvents Config.timing), by simp⟩
  | ticked => exact ⟨renderEvents (scrollWindow s.scrBitmap s.scrOff) ++ [.millis s.scrSpeed], by simp⟩
  | drove es => exact ⟨es, by simp⟩

/-- Settles O50, from the effects of an instruction and of a step. -/
theorem traceIsAppendOnly : Obligations.TraceIsAppendOnly := by
  refine ⟨fun i s t h => ?instruction, fun s t h => ?step⟩
  case instruction =>
    obtain ⟨_, he⟩ := exec_cases h
    exact he.trace_append
  case step =>
    obtain ⟨turns, rfl | ⟨i, _, he⟩⟩ := step_effect h
    · exact ⟨[], (List.append_nil _).symm⟩
    · exact he.trace_append

end Sys2Proof.Machine
end

section
/-! PROOF. The registers of a running scroll stay in their bounds (R28, R117, R118). -/

namespace Sys2Proof.Machine

/-- An accepted scroll starts at its first offset, which lies in the bounds (R117). -/
theorem scrollBounded_acceptScroll {s : State} {bm : List Byte} (hs : s.initialized = true) (hbm : 32 ≤ bm.length)
    (v : Nat) (st : ScrollStep) : ScrollBounded (s.acceptScroll bm v st) := by
  refine fun _ => ⟨hs, hbm, rfl, ?_⟩
  cases st with
  | forward => simp [State.acceptScroll, firstOffset, finalOffset]; omega
  | backward => simp [State.acceptScroll, firstOffset, finalOffset]

/-- A tick ends the scroll at its final offset, and else moves the offset one step towards it (R118, R119). -/
theorem ScrollBounded.tick {s : State} (hs : ScrollBounded s) : ScrollBounded s.scrollFrame.scrollAdvance := by
  intro hm
  by_cases hlast : s.scrOff = s.scrLast
  · simp [hlast] at hm
  · obtain ⟨hi, hbm, hfinal, hoff⟩ := hs (by simpa [hlast] using hm)
    refine ⟨by simpa using hi, by simpa using hbm, by simpa using hfinal, ?_⟩
    cases hst : s.scrStep with
    | forward => simp [hst, hlast, stepInt] at hoff ⊢; omega
    | backward => simp [hst, hlast, stepInt] at hoff ⊢; omega

/-- Every effect keeps the bounds: only an accepted scroll and a tick write the scroll registers (R21). -/
theorem Effect.scrollBounded {i : Instr} {s t : State} (h : Effect i s t) (hs : ScrollBounded s) : ScrollBounded t := by
  cases h with
  | raised | answered | wrote | sent | drove => exact hs
  | began =>
    intro hm
    obtain ⟨_, hregisters⟩ := hs hm
    exact ⟨rfl, hregisters⟩
  | accepted bm v st _ hinit hbm => exact scrollBounded_acceptScroll hinit hbm v st
  | ticked => exact hs.tick

/-- Settles O58: every effect keeps the bounds, so every step does. -/
theorem stepKeepsScrollBounds : Obligations.StepKeepsScrollBounds :=
  fun _ _ hs h => step_keeps (fun _ _ hs => hs) (fun _ he hs => he.scrollBounded hs) h hs

end Sys2Proof.Machine
end

section
/-! PROOF. Whole frames leave the lines at rest and no frame open, whatever came before them (R38, R71). -/

namespace Sys2Proof.Machine

/-- The bytes of a frame reach a receiver inside it in order (R70, R86). -/
theorem receive_bytes (t : Timing) (xs : List Byte) (d : Level) (bytes : List Byte) (frames : List Frame) :
    ∃ d' : Level,
      receiveAll { c := some true, d := some d, inFrame := true, bits := [], bytes := bytes, frames := frames }
          (xs.flatMap (byteCells t)) =
        { c := some true, d := some d', inFrame := true, bits := [], bytes := bytes ++ xs, frames := frames } := by
  induction xs generalizing d bytes with
  | nil => exact ⟨d, by simp⟩
  | cons x xs ih =>
    obtain ⟨d', h⟩ := ih (x.getLsbD 0) (bytes ++ [x])
    exact ⟨d', by rw [List.flatMap_cons, receiveAll_append, receive_byteCells, h, List.append_assoc]; rfl⟩

/-- The events of a frame say that frame (R71). -/
theorem says_frameEvents (t : Timing) (xs : Frame) : Says (frameEvents t xs) [xs] := by
  intro ρ hρ
  obtain ⟨d, h⟩ := receive_bytes t xs false [] ρ.frames
  rw [frameEvents, receiveAll_append, receiveAll_append, receive_startCondition t ρ hρ, h, receive_endCondition,
    List.nil_append]

/-- The events leave the lines as they are or both at 1, and a receiver outside a frame outside one (R35, R38). -/
def KeepsRest (es : List Event) : Prop :=
  (es = [] ∨ ∀ line l, lastLevel line es l = some true) ∧
    ∀ ρ : Receiver, ρ.inFrame = false → (receiveAll ρ es).inFrame = false

theorem keepsRest_nil : KeepsRest [] := ⟨.inl rfl, fun _ h => h⟩

/-- Whole frames, one or more, keep the rest. -/
theorem keepsRest_frames (t : Timing) {fs : List Frame} (hfs : fs ≠ []) : KeepsRest (fs.flatMap (frameEvents t)) := by
  refine ⟨.inr (framesEvents_levels t hfs), ?_⟩
  clear hfs
  induction fs with
  | nil => exact fun _ h => h
  | cons f fs ih =>
    intro ρ hρ
    rw [List.flatMap_cons, receiveAll_append]
    exact ih _ (by rw [says_frameEvents t f ρ hρ])

/-- A delay sets no line (R25). -/
theorem lastLevel_append_millis (line : Line) (es : List Event) (n : Nat) (l : Option Level) :
    lastLevel line (es ++ [.millis n]) l = lastLevel line es l := by
  rw [lastLevel_append, lastLevel, lastLevel]

/-- A delay tells a receiver nothing (R70). -/
theorem receive_millis (ρ : Receiver) (n : Nat) : receiveAll ρ [.millis n] = ρ := rfl

/-- The events of a tick, its frames and its delay, keep the rest (R118). -/
theorem keepsRest_tick (b : PixelRegister) (speed : Nat) : KeepsRest (renderEvents b ++ [.millis speed]) := by
  have hframes : KeepsRest (renderEvents b) := keepsRest_frames Config.timing (writeFrames_ne_nil (bytesOf b))
  obtain ⟨_, hclosed⟩ := hframes
  refine ⟨.inr fun line l => ?levels, fun ρ hρ => ?closed⟩
  case levels => rw [lastLevel_append_millis, renderEvents_levels]
  case closed => rw [receiveAll_append, receive_millis]; exact hclosed ρ hρ

end Sys2Proof.Machine
end

section
/-! PROOF. A step continues the running session or begins one, and so keeps the session marks (R98), the line levels
(R25, R38) and the frames (R35). -/

namespace Sys2Proof.Machine

/-- From one state to another the running session has gone on by some events; before the first INIT, with no scroll
running, nothing has happened. -/
structure Continues (s : State) (es : List Event) (t : State) : Prop where
  initialized : t.initialized = s.initialized
  clkPin : t.clkPin = s.clkPin
  dinPin : t.dinPin = s.dinPin
  sessions : t.sessions = s.sessions
  trace : t.trace = s.trace ++ es
  clk : t.clk = lastLevel .clk es s.clk
  din : t.din = lastLevel .din es s.din
  quiet : s.initialized = false → s.mode = .idle → es = [] ∧ t.mode = .idle

/-- A request or a tick continues the session with events that keep the rest, or it begins one (R94, R97, R118). -/
theorem Effect.continues_or_begins {i : Instr} {s t : State} (hi : encodeRequest i = none → i = .scrollTick)
    (h : Effect i s t) :
    (∃ es, KeepsRest es ∧ Continues s es t) ∨
      ∃ c d, c ≠ d ∧ t = (s.beginSession c d).respond ⟨.ok, none⟩ := by
  cases h with
  | raised | answered | wrote => exact .inl ⟨[], keepsRest_nil, by constructor <;> simp [lastLevel]⟩
  | accepted bm v st _ hs => exact .inl ⟨[], keepsRest_nil, by constructor <;> simp [lastLevel, hs]⟩
  | sent b fs _ hs hfs => exact .inl ⟨_, keepsRest_frames Config.timing hfs, by constructor <;> simp [hs]⟩
  | began c d _ hcd => exact .inr ⟨c, d, hcd, rfl⟩
  | ticked _ hm =>
    exact .inl ⟨_, keepsRest_tick (scrollWindow s.scrBitmap s.scrOff) s.scrSpeed,
      by constructor <;> simp [lastLevel_append_millis, hm]⟩
  | drove es hnone htick => exact absurd (hi hnone) htick

theorem PinsDistinct.of_continues {s t : State} {es : List Event} (hs : PinsDistinct s) (h : Continues s es t) :
    PinsDistinct t := by
  unfold PinsDistinct
  rw [h.initialized, h.clkPin, h.dinPin]
  exact hs

/-- While a session goes on, its mark stays the last one and its beginning stays inside the trace (R98). -/
theorem SessionsAgree.of_continues {s t : State} {es : List Event} (hs : SessionsAgree s) (h : Continues s es t) :
    SessionsAgree t := by
  obtain ⟨hbefore, hafter⟩ := hs
  refine ⟨fun hn => ?before, fun hi => ?after⟩
  case before =>
    rw [h.initialized] at hn
    obtain ⟨hsessions, htrace, hclk, hdin, hmode⟩ := hbefore hn
    obtain ⟨rfl, htmode⟩ := h.quiet hn hmode
    exact ⟨h.sessions.trans hsessions, by rw [h.trace, htrace, List.append_nil], h.clk.trans hclk, h.din.trans hdin,
      htmode⟩
  case after =>
    rw [h.initialized] at hi
    obtain ⟨before, start, hsessions, hstart, hmarks⟩ := hafter hi
    refine ⟨before, start, by rw [h.sessions, hsessions, h.clkPin, h.dinPin], ?_, hmarks⟩
    rw [h.trace, List.length_append]
    omega

/-- Every mark of a state begins inside its trace (R98). -/
theorem SessionsAgree.start_le {s : State} (hs : SessionsAgree s) {m : SessionMark} (hm : m ∈ s.sessions) :
    m.start ≤ s.trace.length := by
  obtain ⟨hbefore, hafter⟩ := hs
  cases hi : s.initialized with
  | false =>
    obtain ⟨hsessions, _⟩ := hbefore hi
    simp [hsessions] at hm
  | true =>
    obtain ⟨before, start, hsessions, hstart, hmarks⟩ := hafter hi
    rw [hsessions, List.mem_append, List.mem_singleton] at hm
    rcases hm with hm | rfl
    · exact (hmarks m hm).trans hstart
    · exact hstart

/-- A session that begins gets the last mark, at the end of the trace (R98). -/
theorem SessionsAgree.of_beginSession {s : State} (hs : SessionsAgree s) (c d : PinId) (r : Response) :
    SessionsAgree ((s.beginSession c d).respond r) :=
  ⟨nofun, fun _ => ⟨s.sessions, s.trace.length, rfl, le_rfl, fun _ hm => hs.start_le hm⟩⟩

/-- Every request and every tick keeps the session marks in agreement with the state (R98). -/
theorem Effect.sessionsAgree {i : Instr} {s t : State} (hi : encodeRequest i = none → i = .scrollTick)
    (h : Effect i s t) (hs : SessionsAgree s) : SessionsAgree t := by
  obtain ⟨es, _, hc⟩ | ⟨c, d, _, rfl⟩ := h.continues_or_begins hi
  · exact hs.of_continues hc
  · exact hs.of_beginSession c d _

/-- Every request and every tick keeps the pins apart (R24, R97). -/
theorem Effect.pinsDistinct {i : Instr} {s t : State} (hi : encodeRequest i = none → i = .scrollTick)
    (h : Effect i s t) (hs : PinsDistinct s) : PinsDistinct t := by
  obtain ⟨es, _, hc⟩ | ⟨c, d, hcd, rfl⟩ := h.continues_or_begins hi
  · exact hs.of_continues hc
  · exact fun _ => hcd

/-- Settles O56: a request or a tick continues the session, or begins one on two pins that differ. -/
theorem stepKeepsPinsAndSessions : Obligations.StepKeepsPinsAndSessions :=
  fun _ _ hpins hsessions h =>
    ⟨step_keeps (fun _ _ hs => hs) (fun hi he hs => he.pinsDistinct hi hs) h hpins,
      step_keeps (fun _ _ hs => hs) (fun hi he hs => he.sessionsAgree hi hs) h hsessions⟩

/-- The events of a session that goes on come after those it had (R98). -/
theorem Continues.sessionTrace {s t : State} {es : List Event} (h : Continues s es t) (hs : SessionsAgree s) :
    t.sessionTrace = s.sessionTrace ++ es := by
  unfold State.sessionTrace
  rw [h.sessions, h.trace]
  cases hlast : s.sessions.getLast? with
  | none => rfl
  | some m => exact List.drop_append_of_le_length (hs.start_le (List.mem_of_getLast? hlast))

/-- A session that begins has no event yet (R98). -/
theorem sessionTrace_beginSession (s : State) (c d : PinId) (r : Response) :
    ((s.beginSession c d).respond r).sessionTrace = [] := by
  simp [State.sessionTrace]

/-- The lines at rest, as the session's events last drove them, and no frame open: what O57 keeps. -/
structure WireAtRest (s : State) : Prop where
  lines : LinesRest s
  levels : LevelsTrack s
  frames : FramesClosed s

/-- Events that keep the rest take a session at rest to one at rest. -/
theorem WireAtRest.of_continues {s t : State} {es : List Event} (hs : WireAtRest s) (hagree : SessionsAgree s)
    (hes : KeepsRest es) (h : Continues s es t) : WireAtRest t := by
  obtain ⟨hlevels, hclosed⟩ := hes
  obtain ⟨hclk, hdin⟩ := hs.levels
  refine ⟨?lines, ⟨?clk, ?din⟩, ?frames⟩
  case lines =>
    unfold LinesRest
    rw [h.clk, h.din]
    obtain rfl | hone := hlevels
    · exact hs.lines
    · exact .inr ⟨hone _ _, hone _ _⟩
  case clk => rw [h.sessionTrace hagree, lastLevel_append, ← hclk, h.clk]
  case din => rw [h.sessionTrace hagree, lastLevel_append, ← hdin, h.din]
  case frames =>
    unfold FramesClosed
    rw [h.sessionTrace hagree, receiveAll_append]
    exact hclosed _ hs.frames

/-- A session that begins is at rest: nothing has been driven in it (R97). -/
theorem wireAtRest_beginSession (s : State) (c d : PinId) (r : Response) :
    WireAtRest ((s.beginSession c d).respond r) := by
  have htrace := sessionTrace_beginSession s c d r
  exact ⟨.inl ⟨rfl, rfl⟩, by rw [LevelsTrack, htrace]; exact ⟨rfl, rfl⟩, by rw [FramesClosed, htrace]; rfl⟩

/-- Every request and every tick keeps the wire at rest (R35, R38). -/
theorem Effect.wireAtRest {i : Instr} {s t : State} (hi : encodeRequest i = none → i = .scrollTick)
    (h : Effect i s t) (hagree : SessionsAgree s) (hs : WireAtRest s) : WireAtRest t := by
  obtain ⟨es, hes, hc⟩ | ⟨c, d, _, rfl⟩ := h.continues_or_begins hi
  · exact hs.of_continues hagree hes hc
  · exact wireAtRest_beginSession s c d _

/-- Settles O57: a request or a tick sends whole frames, or begins a session with nothing driven. The invariant carries
the agreement of the session marks, which places the events in the running session. -/
theorem stepKeepsLinesAndFrames : Obligations.StepKeepsLinesAndFrames := by
  intro s t hagree hlines hlevels hframes h
  have hkept : SessionsAgree t ∧ WireAtRest t :=
    step_keeps (P := fun s => SessionsAgree s ∧ WireAtRest s)
      (fun _ _ ⟨hagree, hlines, hlevels, hframes⟩ => ⟨hagree, hlines, hlevels, hframes⟩)
      (fun hi he ⟨hagree, hrest⟩ => ⟨he.sessionsAgree hi hagree, he.wireAtRest hi hagree hrest⟩)
      h ⟨hagree, hlines, hlevels, hframes⟩
  obtain ⟨_, hlines', hlevels', hframes'⟩ := hkept
  exact ⟨hlines', hlevels', hframes'⟩

/-- Settles O59: before the first INIT nothing has been driven, and no scroll runs. -/
theorem resetMeetsTheInvariants : Obligations.ResetMeetsTheInvariants := by
  intro turns
  refine ⟨?pins, ?sessions, ?lines, ?levels, ?frames, ?scroll⟩
  case pins => exact nofun
  case sessions => exact ⟨fun _ => ⟨rfl, rfl, rfl, rfl, rfl⟩, nofun⟩
  case lines => exact .inl ⟨rfl, rfl⟩
  case levels => exact ⟨rfl, rfl⟩
  case frames => rfl
  case scroll => exact nofun

end Sys2Proof.Machine
end

section
/-! PROOF. Which instruction may change which register (R21): what a request keeps whether it is answered or faults, and
from that the writers of the pixel register and of the scroll registers. -/

namespace Sys2Proof.Machine

/-- What the recording of a fault and the body of a request keep, the request keeps. -/
theorem keeps_of_admission {α : Type} (f : State → α) {r : Request} {s t : State} {run : State → Out}
    (hraise : ∀ k, f (s.raise k r) = f s) (hrun : run s = .next t → f t = f s) (h : admission r s run = .next t) :
    f t = f s := by
  obtain ⟨_, ⟨_, rfl⟩ | ⟨_, _, rfl⟩ | ⟨_, _, _, _, rfl⟩ | ⟨_, _, _, h⟩⟩ := admission_cases h
  · exact hraise _
  · exact hraise _
  · exact hraise _
  · exact hrun h

/-- What the effect and the answer of a request keep, its end keeps. -/
theorem keeps_of_finish {α : Type} (f : State → α) {r : Result} {effect : State → State} {s t : State}
    (heffect : ∀ a, f ((effect s).respond a) = f s) (hanswer : ∀ a, f (s.respond a) = f s)
    (h : finish r effect s = .next t) : f t = f s := by
  obtain ⟨_, rfl⟩ | ⟨_, rfl⟩ := finish_cases h
  · exact heffect _
  · exact hanswer _

/-- The same for a request that returns a value. -/
theorem keeps_of_finishWith {α : Type} (f : State → α) {r : Result} {v : List Byte} {effect : State → State}
    {s t : State} (heffect : ∀ a, f ((effect s).respond a) = f s) (hanswer : ∀ a, f (s.respond a) = f s)
    (h : finishWith r v effect s = .next t) : f t = f s := by
  obtain ⟨_, rfl⟩ | ⟨_, rfl⟩ := finishWith_cases h
  · exact heffect _
  · exact hanswer _

/-- An internal primitive or a wire command drives the lines and does nothing else (R78). -/
theorem exec_internal {i : Instr} {s t : State} (hi : encodeRequest i = none) (htick : i ≠ .scrollTick)
    (h : exec i s = .next t) : ∃ es, t = s.emit es := by
  obtain ⟨_, he⟩ := exec_cases h
  cases he with
  | raised k r hr => simp [hi] at hr
  | answered _ hreq | wrote _ _ hreq | sent _ _ hreq | accepted _ _ _ hreq => simp [hostRequest, hi] at hreq
  | began c d hinit => simp [hinit, encodeRequest] at hi
  | ticked hi' => exact absurd hi' htick
  | drove es => exact ⟨es, rfl⟩

/-- The mode and the scroll registers as they are held, with their meaning or without. -/
def State.scrollPart (s : State) : Mode × ScrollRegisters :=
  (s.mode, ⟨s.scrBitmap, s.scrOff, s.scrLast, s.scrStep, s.scrSpeed⟩)

/-- Every instruction but SCROLL_TEXT and SCROLL_TICK keeps the mode and the scroll registers (R21, R27, R28). -/
theorem exec_scrollPart {i : Instr} {s t : State} (htext : ∀ a b c, i ≠ .scrollText a b c) (htick : i ≠ .scrollTick)
    (h : exec i s = .next t) : t.scrollPart = s.scrollPart := by
  cases i with
  | init | writeFrame | turnOn | turnOff | brightness | setPixel | render | clear | loadImage | drawRect | drawLine =>
    exact keeps_of_admission State.scrollPart (fun _ => rfl)
      (keeps_of_finish _ (fun _ => by simp [State.scrollPart]) fun _ => rfl) h
  | parsePattern | readBuffer | transpose | buildScrollBitmap =>
    exact keeps_of_admission State.scrollPart (fun _ => rfl)
      (keeps_of_finishWith _ (fun _ => by simp [State.scrollPart]) fun _ => rfl) h
  | illegalRequest =>
    obtain ⟨_, _, rfl⟩ := execIllegalRequest_cases h
    rfl
  | cmdAutoIncrement | cmdAddress0 | cmdDisplayOnDefault | cmdTurnOn | cmdDisplayOff | cmdBrightness | wireDataByte
  | sendBit | sendByte | startSignal | endSignal | sendCommand =>
    obtain ⟨_, rfl⟩ := exec_internal rfl (by simp) h
    rfl
  | scrollText text speed dir => exact absurd rfl (htext text speed dir)
  | scrollTick => exact absurd rfl htick

/-- The instructions that R21's table lets write the pixel register. -/
def WritesBuffer (i : Instr) : Prop :=
  (∃ a b, i = .init a b) ∨ (∃ a b c, i = .setPixel a b c) ∨ i = .clear ∨ (∃ g, i = .loadImage g) ∨
    (∃ x, i = .parsePattern x) ∨ (∃ a b c d e, i = .drawRect a b c d e) ∨ (∃ a b c d, i = .drawLine a b c d) ∨
    i = .scrollTick

/-- Every other instruction keeps the pixel register (R21). -/
theorem exec_buf {i : Instr} {s t : State} (hw : ¬WritesBuffer i) (h : exec i s = .next t) : t.buf = s.buf := by
  cases i with
  | writeFrame | turnOn | turnOff | brightness | render =>
    exact keeps_of_admission State.buf (fun _ => rfl) (keeps_of_finish _ (fun _ => rfl) fun _ => rfl) h
  | readBuffer | transpose | buildScrollBitmap =>
    exact keeps_of_admission State.buf (fun _ => rfl) (keeps_of_finishWith _ (fun _ => rfl) fun _ => rfl) h
  | scrollText =>
    dsimp only [exec, execScrollText] at h
    refine keeps_of_admission State.buf (fun _ => rfl) (fun hrun => ?_) h
    split at hrun <;> (obtain rfl := Host.Outcome.next.inj hrun; rfl)
  | illegalRequest =>
    obtain ⟨_, _, rfl⟩ := execIllegalRequest_cases h
    rfl
  | cmdAutoIncrement | cmdAddress0 | cmdDisplayOnDefault | cmdTurnOn | cmdDisplayOff | cmdBrightness | wireDataByte
  | sendBit | sendByte | startSignal | endSignal | sendCommand =>
    obtain ⟨_, rfl⟩ := exec_internal rfl (by simp) h
    rfl
  | init | setPixel | clear | loadImage | parsePattern | drawRect | drawLine | scrollTick =>
    exact absurd (by simp [WritesBuffer]) hw

/-- A session that begins is an INIT's; every other effect keeps the pins and the initialised flag (R21, R24). -/
theorem Effect.pins_of_not_init {i : Instr} {s t : State} (hi : ∀ a b, i ≠ .init a b) (h : Effect i s t) :
    t.initialized = s.initialized ∧ t.clkPin = s.clkPin ∧ t.dinPin = s.dinPin := by
  cases h with
  | raised | answered | wrote | sent | accepted | drove => exact ⟨rfl, rfl, rfl⟩
  | began c d hinit => exact absurd hinit (hi c d)
  | ticked => simp

/-- Only an admission records a fault, so only a request changes the fault register (R21, R126). -/
theorem Effect.fault_of_no_request {i : Instr} {s t : State} (hi : encodeRequest i = none) (h : Effect i s t) :
    t.fault = s.fault := by
  cases h with
  | raised k r hr => simp [hi] at hr
  | answered | wrote | sent | began | accepted | drove => rfl
  | ticked => simp

/-- Every instruction but SCROLL_TEXT keeps the registers that a scroll does not move (R21, R28). -/
theorem exec_scrollConstants {i : Instr} {s t : State} (htext : ∀ a b c, i ≠ .scrollText a b c)
    (h : exec i s = .next t) :
    t.scrBitmap = s.scrBitmap ∧ t.scrLast = s.scrLast ∧ t.scrStep = s.scrStep ∧ t.scrSpeed = s.scrSpeed := by
  by_cases htick : i = .scrollTick
  · subst htick
    obtain ⟨_, _, rfl⟩ := execScrollTick_cases h
    simp
  · have hpart := exec_scrollPart htext htick h
    simp only [State.scrollPart, Prod.mk.injEq, ScrollRegisters.mk.injEq] at hpart
    obtain ⟨_, hbitmap, _, hlast, hstep, hspeed⟩ := hpart
    exact ⟨hbitmap, hlast, hstep, hspeed⟩

/-- Settles O51, each clause by what every other instruction keeps. -/
theorem registersAreWrittenAsTabled : Obligations.RegistersAreWrittenAsTabled := by
  intro i s t h
  obtain ⟨_, he⟩ := exec_cases h
  refine ⟨fun hne => ?buffer, fun hne => ?pins, fun hne => ?scroll, fun hne => ?constants, fun hne => ?fault⟩
  case buffer => exact by_contra fun hw => hne (exec_buf hw h)
  case pins =>
    by_contra hw
    obtain ⟨hinit, hclk, hdin⟩ := he.pins_of_not_init fun a b hi => hw ⟨a, b, hi⟩
    simp [hinit, hclk, hdin] at hne
  case scroll =>
    by_contra hw
    have hpart := exec_scrollPart (fun a b c hi => hw (.inl ⟨a, b, c, hi⟩)) (fun hi => hw (.inr hi)) h
    simp only [State.scrollPart, Prod.mk.injEq, ScrollRegisters.mk.injEq] at hpart
    obtain ⟨hmode, _, hoff, _⟩ := hpart
    simp [hmode, hoff] at hne
  case constants =>
    by_contra hw
    obtain ⟨hbitmap, hlast, hstep, hspeed⟩ := exec_scrollConstants (fun a b c hi => hw ⟨a, b, c, hi⟩) h
    simp [hbitmap, hlast, hstep, hspeed] at hne
  case fault => exact fun hnone => hne (he.fault_of_no_request hnone)

end Sys2Proof.Machine
end

section
/-! PROOF. The step of a turn in which the host issues a request (R18, R137), and with a fault recorded (R130). -/

namespace Sys2Proof.Machine

variable {s : State} {r : Request} {rest : List HostTurn}

/-- A request issued now runs, whatever the block is doing. -/
theorem step_of_host_issue (hf : s.fault = none) (hh : s.host = .issue r :: rest) :
    step s = exec (decodeRequest r) { s with host := rest } := by
  rw [step_eq_runTurn hf]
  simp only [runTurn, hh, runRequest]

/-- A request that waits runs once no scroll does (R137). -/
theorem step_of_host_issueWhenReady_idle (hf : s.fault = none) (hh : s.host = .issueWhenReady r :: rest)
    (hm : s.mode = .idle) : step s = exec (decodeRequest r) { s with host := rest } := by
  rw [step_eq_runTurn hf]
  simp only [runTurn, hh, hm, runRequest]

/-- While a scroll runs a request that waits stays, and the step is the sequencer's (R137). -/
theorem step_of_host_issueWhenReady_scrolling (hf : s.fault = none) (hh : s.host = .issueWhenReady r :: rest)
    (hm : s.mode = .scrolling) : step s = quietTurn s := by
  rw [step_eq_runTurn hf]
  simp only [runTurn, hh, hm]

/-- With a fault recorded the block is quiescent (R130). -/
theorem step_of_fault {record : FaultRecord} (hf : s.fault = some record) : step s = .fault .quiescent := by
  simp [step, hf]

end Sys2Proof.Machine
end

section
/-! PROOF. No step depends on a register that holds no value (R28, R36): the relation of two such states, register by
register; that every operation keeps it; and from that the instructions and the step. -/

namespace Sys2Proof.Machine

/-- Two states that agree on every register that holds a value: `SameButUnset`, register by register. -/
structure AgreeWhereSet (s s' : State) : Prop where
  initialized : s.initialized = s'.initialized
  buf : s.initialized = true → s.buf = s'.buf
  clkPin : s.initialized = true → s.clkPin = s'.clkPin
  dinPin : s.initialized = true → s.dinPin = s'.dinPin
  scroll : s.scroll = s'.scroll
  clk : s.clk = s'.clk
  din : s.din = s'.din
  mode : s.mode = s'.mode
  fault : s.fault = s'.fault
  trace : s.trace = s'.trace
  results : s.results = s'.results
  host : s.host = s'.host
  sessions : s.sessions = s'.sessions

theorem sameButUnset_iff {s s' : State} : SameButUnset s s' ↔ AgreeWhereSet s s' := by
  constructor
  · rintro ⟨hi, hbuf, hpins, hscroll, hclk, hdin, hmode, hfault, htrace, hresults, hhost, hsessions⟩
    refine ⟨hi, fun h => ?buf, fun h => ?clkPin, fun h => ?dinPin, hscroll, hclk, hdin, hmode, hfault, htrace, hresults,
      hhost, hsessions⟩
    case buf => simpa [State.pixelRegister, ← hi, h] using hbuf
    all_goals
      obtain ⟨hc, hd⟩ : s.clkPin = s'.clkPin ∧ s.dinPin = s'.dinPin := by simpa [State.pins, ← hi, h] using hpins
      assumption
  · intro h
    refine ⟨h.initialized, ?buf, ?pins, h.scroll, h.clk, h.din, h.mode, h.fault, h.trace, h.results, h.host, h.sessions⟩
    all_goals
      cases hi : s.initialized <;>
        simp [State.pixelRegister, State.pins, ← h.initialized, hi, h.buf, h.clkPin, h.dinPin]

/-- While a scroll runs its registers hold values (R28). -/
theorem State.scroll_of_scrolling {s : State} (hm : s.mode = .scrolling) :
    s.scroll = some ⟨s.scrBitmap, s.scrOff, s.scrLast, s.scrStep, s.scrSpeed⟩ := by
  simp only [State.scroll, hm]

namespace AgreeWhereSet

variable {s s' : State}

/-! ### The operations -/

theorem takeTurns (h : AgreeWhereSet s s') (turns : List HostTurn) :
    AgreeWhereSet { s with host := turns } { s' with host := turns } :=
  { h with host := rfl }

theorem raise (h : AgreeWhereSet s s') (k : FaultKind) (r : Request) : AgreeWhereSet (s.raise k r) (s'.raise k r) :=
  { h with fault := rfl }

theorem respond (h : AgreeWhereSet s s') (r : Response) : AgreeWhereSet (s.respond r) (s'.respond r) :=
  { h with results := congrArg (· ++ [r]) h.results }

theorem emit (h : AgreeWhereSet s s') {es es' : List Event} (hes : es = es') :
    AgreeWhereSet (s.emit es) (s'.emit es') := by
  subst hes
  exact { h with
    trace := congrArg (· ++ es) h.trace
    clk := congrArg (lastLevel .clk es) h.clk
    din := congrArg (lastLevel .din es) h.din }

/-- Before the first INIT the pixel register may be written with anything (R23). -/
theorem setBuf (h : AgreeWhereSet s s') {b b' : PixelRegister} (hb : s.initialized = true → b = b') :
    AgreeWhereSet { s with buf := b } { s' with buf := b' } :=
  { h with buf := hb }

theorem render (h : AgreeWhereSet s s') (hbuf : s.buf = s'.buf) : AgreeWhereSet s.render s'.render :=
  h.emit (congrArg renderEvents hbuf)

theorem beginSession (h : AgreeWhereSet s s') (c d : PinId) :
    AgreeWhereSet (s.beginSession c d) (s'.beginSession c d) :=
  { h with
    initialized := rfl
    buf := fun _ => rfl
    clkPin := fun _ => rfl
    dinPin := fun _ => rfl
    clk := rfl
    din := rfl
    sessions := by simp [h.sessions, h.trace] }

theorem acceptScroll (h : AgreeWhereSet s s') (bm : List Byte) (v : Nat) (st : ScrollStep) :
    AgreeWhereSet (s.acceptScroll bm v st) (s'.acceptScroll bm v st) :=
  { h with mode := rfl, scroll := rfl }

/-- Once a scroll has ended its registers hold no value (R28). -/
theorem endScroll (h : AgreeWhereSet s s') : AgreeWhereSet { s with mode := .idle } { s' with mode := .idle } :=
  { h with mode := rfl, scroll := rfl }

/-- While a scroll runs its registers are equal (R28). -/
theorem scrollRegisters (h : AgreeWhereSet s s') (hm : s.mode = .scrolling) :
    s.scrBitmap = s'.scrBitmap ∧ s.scrOff = s'.scrOff ∧ s.scrLast = s'.scrLast ∧ s.scrStep = s'.scrStep ∧
      s.scrSpeed = s'.scrSpeed := by
  have hscroll := h.scroll
  rw [State.scroll_of_scrolling hm, State.scroll_of_scrolling (h.mode.symm.trans hm)] at hscroll
  simpa using hscroll

theorem scrollFrame (h : AgreeWhereSet s s') (hm : s.mode = .scrolling) :
    AgreeWhereSet s.scrollFrame s'.scrollFrame := by
  obtain ⟨hbitmap, hoff, _, _, hspeed⟩ := h.scrollRegisters hm
  have hwindow : scrollWindow s.scrBitmap s.scrOff = scrollWindow s'.scrBitmap s'.scrOff := by rw [hbitmap, hoff]
  exact ((h.setBuf fun _ => hwindow).render hwindow).emit (by rw [hspeed])

theorem scrollAdvance (h : AgreeWhereSet s s') (hm : s.mode = .scrolling) :
    AgreeWhereSet s.scrollAdvance s'.scrollAdvance := by
  obtain ⟨hbitmap, hoff, hlast, hstep, hspeed⟩ := h.scrollRegisters hm
  have hm' := h.mode.symm.trans hm
  by_cases hend : s.scrOff = s.scrLast
  · rw [State.scrollAdvance, State.scrollAdvance, if_pos hend, if_pos (hoff ▸ hlast ▸ hend)]
    exact h.endScroll.respond _
  · rw [State.scrollAdvance, State.scrollAdvance, if_neg hend, if_neg (hoff ▸ hlast ▸ hend)]
    exact { h with scroll := by simp [State.scroll, hm, hm', hbitmap, hoff, hlast, hstep, hspeed] }

/-! ### The ends of a request -/

theorem same_next {t t' : State} (h : AgreeWhereSet t t') : SameOutcome (.next t) (.next t') := sameButUnset_iff.mpr h

/-- Admission reads only registers that hold a value; past it the block is initialised, but for INIT (R125). -/
theorem same_admission_of_allowed (h : AgreeWhereSet s s') {r : Request} {run run' : State → Out}
    (hrun : s.initialized = true ∨ r.code = 0x01 → SameOutcome (run s) (run' s')) :
    SameOutcome (admission r s run) (admission r s' run') := by
  unfold admission
  rw [← h.fault, ← h.mode, ← h.initialized]
  split
  · rfl
  split
  · exact (h.raise _ _).same_next
  split
  · exact (h.raise _ _).same_next
  split
  · exact (h.raise _ _).same_next
  case isFalse hallowed => exact hrun (by simpa [Classical.or_iff_not_imp_left] using hallowed)

/-- Every request but INIT runs on an initialised block (R125). -/
theorem same_admission (h : AgreeWhereSet s s') {r : Request} {run run' : State → Out} (hc : r.code ≠ 0x01)
    (hrun : s.initialized = true → SameOutcome (run s) (run' s')) :
    SameOutcome (admission r s run) (admission r s' run') :=
  h.same_admission_of_allowed fun hallowed => hrun (hallowed.resolve_right hc)

/-- A request whose effect keeps the agreement keeps it, on `Ok` and on every other code (R124). -/
theorem same_finish (h : AgreeWhereSet s s') (r : Result) {effect : State → State}
    (heffect : AgreeWhereSet (effect s) (effect s')) : SameOutcome (finish r effect s) (finish r effect s') := by
  cases r with
  | ok => exact (heffect.respond _).same_next
  | invalidDimensions | outOfRange | unsupported => exact (h.respond _).same_next

/-- The same for a request that returns a value. -/
theorem same_finishWith (h : AgreeWhereSet s s') (r : Result) (v : List Byte) {effect : State → State}
    (heffect : AgreeWhereSet (effect s) (effect s')) :
    SameOutcome (finishWith r v effect s) (finishWith r v effect s') := by
  cases r with
  | ok => exact (heffect.respond _).same_next
  | invalidDimensions | outOfRange | unsupported => exact (h.respond _).same_next

theorem same_perform_emit (h : AgreeWhereSet s s') (es : List Event) :
    SameOutcome (perform s fun s => s.emit es) (perform s' fun s => s.emit es) := by
  unfold perform
  rw [← h.fault]
  split
  · rfl
  · exact (h.emit rfl).same_next

/-! ### The instructions and the step -/

theorem same_execScrollTick (h : AgreeWhereSet s s') : SameOutcome (execScrollTick s) (execScrollTick s') := by
  unfold execScrollTick
  rw [← h.fault, ← h.mode]
  split
  · rfl
  cases hm : s.mode with
  | idle => rfl
  | scrolling => exact ((h.scrollFrame hm).scrollAdvance (by simpa using hm)).same_next

theorem same_execScrollText (h : AgreeWhereSet s s') (text : Text) (speed dir : Int) :
    SameOutcome (execScrollText text speed dir s) (execScrollText text speed dir s') := by
  refine h.same_admission (by simp) fun _ => ?_
  split
  · exact (h.acceptScroll _ _ _).same_next
  · exact (h.respond _).same_next

theorem same_execIllegalRequest (h : AgreeWhereSet s s') (code : Byte) (operands : List Operand) :
    SameOutcome (execIllegalRequest code operands s) (execIllegalRequest code operands s') := by
  unfold execIllegalRequest
  rw [← h.fault]
  split
  · exact h.same_admission_of_allowed fun _ => rfl
  · split <;> rfl

/-- No instruction depends on a register that holds no value. -/
theorem same_exec (h : AgreeWhereSet s s') (i : Instr) : SameOutcome (exec i s) (exec i s') := by
  cases i with
  | init clk din => exact h.same_admission_of_allowed fun _ => h.same_finish _ (h.beginSession clk din)
  | writeFrame | turnOn | turnOff | brightness => exact h.same_admission (by simp) fun _ => h.same_finish _ (h.emit rfl)
  | setPixel | drawRect | drawLine =>
    exact h.same_admission (by simp) fun hi => h.same_finish _ (h.setBuf fun _ => by rw [h.buf hi])
  | render => exact h.same_admission (by simp) fun hi => h.same_finish _ (h.render (h.buf hi))
  | clear | loadImage => exact h.same_admission (by simp) fun _ => h.same_finish _ ((h.setBuf fun _ => rfl).render rfl)
  | parsePattern => exact h.same_admission (by simp) fun _ => h.same_finishWith _ _ (h.setBuf fun _ => rfl)
  | readBuffer =>
    refine h.same_admission (by simp) fun hi => ?_
    rw [h.buf hi]
    exact h.same_finishWith _ _ h
  | transpose | buildScrollBitmap => exact h.same_admission (by simp) fun _ => h.same_finishWith _ _ h
  | scrollText text speed dir => exact h.same_execScrollText text speed dir
  | illegalRequest code operands => exact h.same_execIllegalRequest code operands
  | scrollTick => exact h.same_execScrollTick
  | cmdAutoIncrement | cmdAddress0 | cmdDisplayOnDefault | cmdTurnOn | cmdDisplayOff | cmdBrightness | wireDataByte
  | sendBit | sendByte | startSignal | endSignal | sendCommand => exact h.same_perform_emit _

theorem same_quietTurn (h : AgreeWhereSet s s') : SameOutcome (quietTurn s) (quietTurn s') := by
  cases hm : s.mode with
  | idle =>
    rw [quietTurn_of_idle hm, quietTurn_of_idle (h.mode.symm.trans hm)]
    exact h.same_next
  | scrolling =>
    rw [quietTurn_of_scrolling hm, quietTurn_of_scrolling (h.mode.symm.trans hm)]
    exact h.same_exec _

/-- No step depends on a register that holds no value, by the fault register, the host's turn and the mode. -/
theorem same_step (h : AgreeWhereSet s s') : SameOutcome (step s) (step s') := by
  cases hf : s.fault with
  | some record =>
    rw [step_of_fault hf, step_of_fault (h.fault.symm.trans hf)]
    rfl
  | none =>
    have hf' := h.fault.symm.trans hf
    have hhost := h.host.symm
    match hh : s.host with
    | [] =>
      rw [step_of_host_nil hf hh, step_of_host_nil hf' (hhost.trans hh)]
      exact h.same_quietTurn
    | .issue r :: rest =>
      rw [step_of_host_issue hf hh, step_of_host_issue hf' (hhost.trans hh)]
      exact (h.takeTurns rest).same_exec _
    | .issueWhenReady r :: rest =>
      cases hm : s.mode with
      | idle =>
        have hm' := h.mode.symm.trans hm
        rw [step_of_host_issueWhenReady_idle hf hh hm, step_of_host_issueWhenReady_idle hf' (hhost.trans hh) hm']
        exact (h.takeTurns rest).same_exec _
      | scrolling =>
        have hm' := h.mode.symm.trans hm
        rw [step_of_host_issueWhenReady_scrolling hf hh hm,
          step_of_host_issueWhenReady_scrolling hf' (hhost.trans hh) hm']
        exact h.same_quietTurn
    | .pass :: rest =>
      rw [step_of_host_pass hf hh, step_of_host_pass hf' (hhost.trans hh)]
      exact (h.takeTurns rest).same_quietTurn

end AgreeWhereSet

/-- Settles O49: every operation of a step keeps the agreement of two states where their registers hold values. -/
theorem stepIgnoresUnsetRegisters : Obligations.StepIgnoresUnsetRegisters :=
  fun _ _ hsame => (sameButUnset_iff.mp hsame).same_step

end Sys2Proof.Machine
end

section
/-! PROOF. A step runs the request that the host issues (R52, R74, R137). -/

namespace Sys2Proof.Machine

/-- Settles O8: the step of each turn with a request, and the sequencer's turn while a scroll runs. -/
theorem stepRunsTheDecodedRequest : Obligations.StepRunsTheDecodedRequest := by
  rintro s r rest _ hf rfl _
  refine ⟨fun hh => ?issue, fun hh hm => ?readyIdle, fun hh hm => ?readyScrolling⟩
  case issue => exact step_of_host_issue hf hh
  case readyIdle => exact step_of_host_issueWhenReady_idle hf hh hm
  case readyScrolling =>
    exact (step_of_host_issueWhenReady_scrolling hf hh hm).trans (quietTurn_of_scrolling hm)

end Sys2Proof.Machine
end

section
/-! PROOF. A second identical request leaves the state as the first left it (R50): the registers that count, the effects
that are repeatable on them, and the requests as their effects. -/

namespace Sys2Proof.Machine

/-- The second state differs from the first only in the trace, the answers and the session marks, register by register. -/
structure SameButLogs (t u : State) : Prop where
  buf : u.buf = t.buf
  initialized : u.initialized = t.initialized
  clkPin : u.clkPin = t.clkPin
  dinPin : u.dinPin = t.dinPin
  clk : u.clk = t.clk
  din : u.din = t.din
  mode : u.mode = t.mode
  scrBitmap : u.scrBitmap = t.scrBitmap
  scrOff : u.scrOff = t.scrOff
  scrLast : u.scrLast = t.scrLast
  scrStep : u.scrStep = t.scrStep
  scrSpeed : u.scrSpeed = t.scrSpeed
  fault : u.fault = t.fault
  host : u.host = t.host

theorem sameButLogs_iff {t u : State} :
    SameButLogs t u ↔ u = { t with trace := u.trace, results := u.results, sessions := u.sessions } := by
  constructor
  · intro h
    rw [← h.buf, ← h.initialized, ← h.clkPin, ← h.dinPin, ← h.clk, ← h.din, ← h.mode, ← h.scrBitmap, ← h.scrOff,
      ← h.scrLast, ← h.scrStep, ← h.scrSpeed, ← h.fault, ← h.host]
  · intro h
    rw [h]
    constructor <;> rfl

/-- An answer is told by the answers alone (R30). -/
theorem sameButLogs_respond (t : State) (a : Response) : SameButLogs t (t.respond a) := by
  constructor <;> rfl

theorem SameButLogs.respond {t u : State} (h : SameButLogs t u) (a b : Response) :
    SameButLogs (t.respond a) (u.respond b) :=
  { h with }

/-! ### Repeatable effects -/

/-- The effect of a request, had once more after the answer, changes nothing more but the logs (R50). -/
def Repeatable (effect : State → State) : Prop :=
  ∀ (s : State) (a : Response), SameButLogs (effect s) (effect ((effect s).respond a))

theorem repeatable_id : Repeatable id := fun s a => sameButLogs_respond s a

/-- Events are repeatable that leave both lines at 1, whatever the levels before (R38). -/
theorem repeatable_emit {es : List Event} (hes : ∀ line l, lastLevel line es l = some true) :
    Repeatable fun s => s.emit es :=
  fun s a => by constructor <;> simp [hes]

/-- A frame is repeatable (R38). -/
theorem repeatable_commandFrame (x : Byte) : Repeatable fun s => s.emit (commandFrame Config.timing x) :=
  repeatable_emit (frameEvents_levels _ _)

theorem repeatable_writeFrame (data : List Byte) : Repeatable fun s => s.emit (writeFrameEvents Config.timing data) :=
  repeatable_emit (framesEvents_levels _ (by simp [writeFrames]))

/-- A write of the pixel register is repeatable if it is idempotent on it. -/
theorem repeatable_setBuf {f : PixelRegister → PixelRegister} (hf : ∀ b, f (f b) = f b) :
    Repeatable fun s => { s with buf := f s.buf } :=
  fun s a => by constructor <;> simp [hf]

/-- Rendering is repeatable (R38, R100). -/
theorem repeatable_render : Repeatable State.render :=
  fun s a => by constructor <;> simp [renderEvents_levels]

/-- Rendering one picture is repeatable (R101, R102). -/
theorem repeatable_renderPicture (b : PixelRegister) : Repeatable fun s => State.render { s with buf := b } :=
  fun s a => by constructor <;> simp [renderEvents_levels]

/-- A session that begins again has the same pins, no levels and a zero buffer; only its mark is one more (R97). -/
theorem repeatable_beginSession (c d : PinId) : Repeatable fun s => s.beginSession c d :=
  fun s a => by constructor <;> simp

/-- `setbit` is idempotent (R96). -/
theorem setbit_setbit (row col : Int) (on : Bool) (b : PixelRegister) :
    setbit row col on (setbit row col on b) = setbit row col on b :=
  pixelRegister_ext fun r hr c hc => by
    simp only [pixel_setbit _ _ _ _ hr hc]
    split <;> rfl

/-- Setting a region is idempotent (R105, R106). -/
theorem setWhere_setWhere (region : Nat → Nat → Bool) (on : Bool) (b : PixelRegister) :
    setWhere region on (setWhere region on b) = setWhere region on b :=
  pixelRegister_ext fun r hr c hc => by
    simp only [pixel_setWhere _ _ _ hr hc]
    split <;> rfl

/-! ### Repeated requests -/

/-- What runs answers a next state again, and that one differs only in the logs. -/
def AnswersAgain (run : State → Out) (t : State) : Prop := ∃ u, run t = .next u ∧ SameButLogs t u

/-- A request with a repeatable effect: on `Ok` the effect is had again, on any other code the request is rejected again
(R124). -/
theorem answersAgain_finish {r : Result} {effect : State → State} (hrep : Repeatable effect) {s t : State}
    (h : finish r effect s = .next t) : AnswersAgain (finish r effect) t := by
  obtain ⟨rfl, rfl⟩ | ⟨hr, rfl⟩ := finish_cases h
  · exact ⟨_, rfl, (hrep s _).respond _ _⟩
  · cases r with
    | ok => exact absurd rfl hr
    | invalidDimensions | outOfRange | unsupported => exact ⟨_, rfl, sameButLogs_respond _ _⟩

/-- The same for a request that returns a value, which may be another one for the second request. -/
theorem answersAgain_finishWith {r : Result} {v w : List Byte} {effect : State → State} (hrep : Repeatable effect)
    {s t : State} (h : finishWith r v effect s = .next t) : AnswersAgain (finishWith r w effect) t := by
  obtain ⟨rfl, rfl⟩ | ⟨hr, rfl⟩ := finishWith_cases h
  · exact ⟨_, rfl, (hrep s _).respond _ _⟩
  · cases r with
    | ok => exact absurd rfl hr
    | invalidDimensions | outOfRange | unsupported => exact ⟨_, rfl, sameButLogs_respond _ _⟩

/-- Admission lets a request with an assigned code through to an idle block that is initialised, and an INIT to one that
is not (R125). -/
theorem admission_of_allowed {r : Request} {s : State} {run : State → Out} (hf : s.fault = none) (hm : s.mode = .idle)
    (ha : assigned r.code = true) (hallowed : s.initialized = true ∨ r.code = 0x01) :
    admission r s run = run s := by
  obtain hi | hc := hallowed
  · exact admission_ready ⟨hf, hm, hi⟩ ha
  · rw [admission, if_neg (by simp [hf]), if_neg (by simp [ha]), if_neg (by simp [hm]), if_neg (by simp [hc])]

/-- A request that was let through, and whose body left the block idle and initialised, is let through again (R125). -/
theorem answersAgain_admission {r : Request} {run : State → Out} {s t : State} (hf : t.fault = none)
    (hmode : t.mode = s.mode) (hinit : s.initialized = true → t.initialized = true)
    (hrun : run s = .next t → AnswersAgain run t) (h : admission r s run = .next t) :
    AnswersAgain (fun s => admission r s run) t := by
  obtain ⟨_, ⟨_, rfl⟩ | ⟨_, _, rfl⟩ | ⟨_, _, _, _, rfl⟩ | ⟨ha, hm, hallowed, h⟩⟩ := admission_cases h
  · simp at hf
  · simp at hf
  · simp at hf
  · obtain ⟨u, hu, hsame⟩ := hrun h
    exact ⟨u, (admission_of_allowed hf (hmode.trans hm) ha (hallowed.imp_left hinit)).trans hu, hsame⟩

/-- No effect takes the block back to before its first INIT (R24). -/
theorem Effect.initialized_of_initialized {i : Instr} {s t : State} (h : Effect i s t) (hs : s.initialized = true) :
    t.initialized = true := by
  cases h with
  | raised | answered | wrote | sent | accepted | drove => exact hs
  | began => rfl
  | ticked => simpa using hs

/-- A host request without SCROLL_TEXT that was answered without a fault is answered again, with the state the same but
for the logs (R50). -/
theorem exec_answersAgain {i : Instr} {s t : State} (hi : hostRequest i = true)
    (htext : ∀ a b c, i ≠ .scrollText a b c) (h : exec i s = .next t) (hf : t.fault = none) :
    AnswersAgain (exec i) t := by
  have htick : i ≠ .scrollTick := by rintro rfl; simp [hostRequest, encodeRequest] at hi
  have hmode : t.mode = s.mode := congrArg Prod.fst (exec_scrollPart htext htick h)
  obtain ⟨_, heffect⟩ := exec_cases h
  have hinit : s.initialized = true → t.initialized = true := heffect.initialized_of_initialized
  cases i with
  | init clk din =>
    exact answersAgain_admission hf hmode hinit (answersAgain_finish (repeatable_beginSession clk din)) h
  | writeFrame =>
    exact answersAgain_admission hf hmode hinit (answersAgain_finish (repeatable_writeFrame _)) h
  | turnOn | turnOff | brightness =>
    exact answersAgain_admission hf hmode hinit (answersAgain_finish (repeatable_commandFrame _)) h
  | setPixel row col on =>
    exact answersAgain_admission hf hmode hinit
      (answersAgain_finish (repeatable_setBuf (setbit_setbit row col on))) h
  | drawRect | drawLine =>
    exact answersAgain_admission hf hmode hinit
      (answersAgain_finish (repeatable_setBuf (setWhere_setWhere _ _))) h
  | render => exact answersAgain_admission hf hmode hinit (answersAgain_finish repeatable_render) h
  | clear | loadImage =>
    exact answersAgain_admission hf hmode hinit (answersAgain_finish (repeatable_renderPicture _)) h
  | parsePattern text =>
    exact answersAgain_admission hf hmode hinit (answersAgain_finishWith
      (repeatable_setBuf (f := fun _ => columnsOf (patternAt (splitLines text))) fun _ => rfl)) h
  | readBuffer =>
    exact answersAgain_admission hf hmode hinit
      (answersAgain_finishWith (w := bytesOf t.buf) repeatable_id) h
  | transpose | buildScrollBitmap =>
    exact answersAgain_admission hf hmode hinit (answersAgain_finishWith repeatable_id) h
  | scrollText text speed dir => exact absurd rfl (htext text speed dir)
  | illegalRequest =>
    obtain ⟨_, _, rfl⟩ := execIllegalRequest_cases h
    simp at hf
  | cmdAutoIncrement | cmdAddress0 | cmdDisplayOnDefault | cmdTurnOn | cmdDisplayOff | cmdBrightness | wireDataByte
  | sendBit | sendByte | startSignal | endSignal | sendCommand | scrollTick =>
    simp [hostRequest, encodeRequest] at hi

/-- Settles O55: every request but SCROLL_TEXT is its effect and its answer, and each effect is repeatable. -/
theorem requestsAreIdempotentOnTheState : Obligations.RequestsAreIdempotentOnTheState := by
  intro i s t hi _ htext h hf
  obtain ⟨u, hu, hsame⟩ := exec_answersAgain hi htext h hf
  exact ⟨u, hu, sameButLogs_iff.mp hsame⟩

end Sys2Proof.Machine
end

section
/-! PROOF. The request port: decoder and encoder are inverse to each other (R74 to R77), and the unassigned codes decode to
the illegal request (R79). -/

namespace Sys2Proof

theorem code_eq_of_toNat {code : Byte} {n : Nat} (h : code.toNat = n) : code = BitVec.ofNat 8 n := by
  rw [← h, BitVec.ofNat_toNat, BitVec.setWidth_eq]

/-- What a well-formed answer of the decoder encodes to is the request again: sixteen rows of R75, and the illegal request
with its unassigned code. -/
theorem encodeRequest_of_decodeRequest {r : Request} {i : Instr} (h : decodeRequest r = i) (hwf : i.wellFormed = true) :
    encodeRequest i = some r := by
  obtain ⟨code, operands, typed⟩ := r
  unfold decodeRequest at h
  dsimp only at h
  split at h <;> subst h
  case h_17 =>
    have hcode : assigned code = false := by simpa [Instr.wellFormed] using hwf
    exact Machine.encodeRequest_illegalRequest hcode _
  all_goals
    rename_i hcode
    obtain rfl := code_eq_of_toNat hcode
    rfl

/-- A request with an unassigned code decodes to the illegal request (R79). -/
theorem decodeRequest_unassigned {code : Byte} (operands : List Operand) (h : assigned code = false) :
    decodeRequest (Request.unassigned code operands h) = .illegalRequest code operands := by
  unfold decodeRequest Request.unassigned
  dsimp only
  split
  case h_17 => rfl
  all_goals
    rename_i hcode
    obtain rfl := code_eq_of_toNat hcode
    exact absurd h (by decide)

/-- The request that an instruction encodes to decodes to that instruction again. -/
theorem decodeRequest_of_encodeRequest {r : Request} {i : Instr} (h : encodeRequest i = some r) : decodeRequest r = i := by
  cases i with
  | init | writeFrame | turnOn | turnOff | brightness | setPixel | render | clear | loadImage | parsePattern | drawRect
  | drawLine | readBuffer | transpose | buildScrollBitmap | scrollText =>
    obtain rfl := Option.some.inj h
    rfl
  | illegalRequest code operands =>
    cases hcode : assigned code with
    | false =>
      rw [Machine.encodeRequest_illegalRequest hcode] at h
      obtain rfl := Option.some.inj h
      exact decodeRequest_unassigned operands hcode
    | true => simp [encodeRequest, hcode] at h
  | cmdAutoIncrement | cmdAddress0 | cmdDisplayOnDefault | cmdTurnOn | cmdDisplayOff | cmdBrightness | wireDataByte
  | sendBit | sendByte | startSignal | endSignal | sendCommand | scrollTick => simp [encodeRequest] at h

/-- Settles O2: encoding undoes decoding, because every decoded request is well formed, and decoding undoes encoding. -/
theorem decodeAndEncodeRequestAgree : Obligations.DecodeAndEncodeRequestAgree := by
  intro r i
  constructor
  · intro h
    obtain ⟨hwf, _⟩ := decodeRequest_isRequest r
    rw [h] at hwf
    exact ⟨hwf, encodeRequest_of_decodeRequest h hwf⟩
  · rintro ⟨_, h⟩
    exact decodeRequest_of_encodeRequest h

/-- Settles O1, by running the decoders. -/
theorem writtenRequestsDecode : Obligations.WrittenRequestsDecode :=
  ⟨rfl, rfl, rfl, rfl, rfl, rfl, rfl, rfl, rfl⟩

namespace Machine

/-- R79's list is the complement of the table of R75. -/
theorem assigned_eq_false_iff (code : Byte) :
    assigned code = false ↔
      (code.toNat = 0x00 ∨ (0x02 ≤ code.toNat ∧ code.toNat ≤ 0x0F) ∨ (0x14 ≤ code.toNat ∧ code.toNat ≤ 0x1F) ∨
        (0x28 ≤ code.toNat ∧ code.toNat ≤ 0x2F) ∨ (0x31 ≤ code.toNat ∧ code.toNat ≤ 0x3F) ∨
        (0x42 ≤ code.toNat ∧ code.toNat ≤ 0xFF)) := by
  revert code; decide

/-- The illegal request records its fault, in every mode and before INIT too (R126, R129). -/
theorem exec_illegalRequest {code : Byte} (operands : List Operand) (h : assigned code = false) {s : State}
    (hf : s.fault = none) :
    exec (.illegalRequest code operands) s = .next (s.raise .illegalRequest (Request.unassigned code operands h)) := by
  dsimp only [exec]
  rw [execIllegalRequest, dif_pos h, admission, if_neg (by simp [hf]), if_pos (by simp [Request.unassigned, h])]

/-- Settles O4: the table searched for every code, and the illegal request with its operands as they are. -/
theorem unassignedCodesAreIllegal : Obligations.UnassignedCodesAreIllegal := by
  intro code operands
  refine ⟨assigned_eq_false_iff code, fun h => ?_⟩
  exact ⟨Request.unassigned code operands h, rfl, rfl, decodeRequest_unassigned operands h,
    fun s hf => exec_illegalRequest operands h hf⟩

end Machine
end Sys2Proof
end

section
/-! PROOF. No request is mistyped (R77), what reading a code with operands answers, and that no step is refused: every
request and every turn of a block without a fault answers a next state (R125). -/

namespace Sys2Proof

/-- Operands fit a code when they are of the types of its row, if it has one (R76, R79). -/
theorem operandsFit_iff {code : Byte} {operands : List Operand} :
    operandsFit code operands = true ↔
      (assigned code = true → signature code = some (operands.map operandType)) := by
  cases hs : signature code with
  | none => simp [operandsFit, assigned, hs]
  | some types =>
    simp only [operandsFit, assigned, hs, beq_iff_eq, Option.isSome_some, forall_const, Option.some.injEq]
    exact eq_comm

/-- The one request with a code and operands is read from them. -/
theorem readRequest_eq_ok_iff {code : Byte} {operands : List Operand} {r : Request} :
    readRequest code operands = .ok r ↔ (r.code = code ∧ r.operands = operands) := by
  obtain ⟨rcode, roperands, typed⟩ := r
  unfold readRequest
  split
  · simp [eq_comm]
  · rename_i hfit
    simp only [reduceCtorEq, false_iff]
    rintro ⟨rfl, rfl⟩
    exact hfit typed

/-- Operands that do not fit are rejected by name, with the code. -/
theorem readRequest_eq_error_iff {code : Byte} {operands : List Operand} :
    readRequest code operands = .error (.mistyped code) ↔ ¬operandsFit code operands = true := by
  unfold readRequest
  split <;> simp_all

namespace Machine

variable {s : State}

theorem finish_answers (r : Result) (effect : State → State) (s : State) : ∃ t, finish r effect s = .next t := by
  cases r <;> exact ⟨_, rfl⟩

theorem finishWith_answers (r : Result) (v : List Byte) (effect : State → State) (s : State) :
    ∃ t, finishWith r v effect s = .next t := by
  cases r <;> exact ⟨_, rfl⟩

/-- Without a fault admission records one or lets the request run (R125). -/
theorem admission_answers (hf : s.fault = none) (r : Request) {run : State → Out} (hrun : ∃ t, run s = .next t) :
    ∃ t, admission r s run = .next t := by
  rw [admission, if_neg (by simp [hf])]
  split_ifs
  · exact ⟨_, rfl⟩
  · exact ⟨_, rfl⟩
  · exact ⟨_, rfl⟩
  · exact hrun

/-- Without a fault every instruction that has a request answers a next state (R125). -/
theorem exec_answers_of_request (hf : s.fault = none) {i : Instr} (hi : encodeRequest i ≠ none) :
    ∃ t, exec i s = .next t := by
  cases i with
  | init | writeFrame | turnOn | turnOff | brightness | setPixel | render | clear | loadImage | drawRect | drawLine =>
    exact admission_answers hf _ (finish_answers _ _ s)
  | parsePattern | readBuffer | transpose | buildScrollBitmap =>
    exact admission_answers hf _ (finishWith_answers _ _ _ s)
  | scrollText =>
    dsimp only [exec, execScrollText]
    refine admission_answers hf _ ?_
    split <;> exact ⟨_, rfl⟩
  | illegalRequest code operands =>
    cases hcode : assigned code with
    | false => exact ⟨_, exec_illegalRequest operands hcode hf⟩
    | true => simp [encodeRequest, hcode] at hi
  | cmdAutoIncrement | cmdAddress0 | cmdDisplayOnDefault | cmdTurnOn | cmdDisplayOff | cmdBrightness | wireDataByte
  | sendBit | sendByte | startSignal | endSignal | sendCommand | scrollTick => exact absurd rfl hi

/-- Without a fault every request of the port answers a next state (R77, R125). -/
theorem exec_decodeRequest_answers (hf : s.fault = none) (r : Request) : ∃ t, exec (decodeRequest r) s = .next t := by
  obtain ⟨_, hrequest, _⟩ := decodeRequest_isRequest r
  exact exec_answers_of_request hf hrequest

/-- Without a fault the sequencer's turn answers a next state, whether or not a scroll runs. -/
theorem quietTurn_answers (hf : s.fault = none) : ∃ t, quietTurn s = .next t := by
  cases hm : s.mode with
  | idle => exact ⟨s, quietTurn_of_idle hm⟩
  | scrolling => exact ⟨_, (quietTurn_of_scrolling hm).trans (by simp [exec, execScrollTick, hf, hm]; rfl)⟩

/-- Without a fault every step answers a next state, whatever the host's turn. -/
theorem step_answers (hf : s.fault = none) : ∃ t, step s = .next t := by
  cases hh : s.host with
  | nil => rw [step_of_host_nil hf hh]; exact quietTurn_answers hf
  | cons turn rest =>
    cases turn with
    | issue r => rw [step_of_host_issue hf hh]; exact exec_decodeRequest_answers (s := { s with host := rest }) hf r
    | issueWhenReady r =>
      cases hm : s.mode with
      | idle =>
        rw [step_of_host_issueWhenReady_idle hf hh hm]
        exact exec_decodeRequest_answers (s := { s with host := rest }) hf r
      | scrolling => rw [step_of_host_issueWhenReady_scrolling hf hh hm]; exact quietTurn_answers hf
    | pass => rw [step_of_host_pass hf hh]; exact quietTurn_answers hf

/-- Settles O3: the proof that a request carries, the two answers of reading one, and the step turn by turn. -/
theorem onlyMistypedRequestsAreNotRead : Obligations.OnlyMistypedRequestsAreNotRead := by
  refine ⟨fun r => operandsFit_iff.mp r.typed, fun code operands => ⟨?error, fun r => readRequest_eq_ok_iff⟩,
    fun s hf => step_answers hf⟩
  case error => rw [readRequest_eq_error_iff, operandsFit_iff, Classical.not_imp]

end Machine
end Sys2Proof
end

section
/-! PROOF. The wire command bytes (R64 to R66, R68) and the frames of the output language (R62, R69). -/

namespace Sys2Proof

open Sys2Proof.Machine

/-- A byte with `0b10001` in its bits 7 to 3 is the brightness command of its bits 2 to 0 (R65). -/
theorem byteBrightness_of_fields {b : Byte} (h : b.extractLsb' 3 5 = 0b10001#5) :
    byteBrightness (b.extractLsb' 0 3) = b := by
  revert b; decide

/-- The brightness command holds its level in bits 2 to 0 (R65). -/
theorem byteBrightness_fields (level : BitVec 3) :
    (byteBrightness level).extractLsb' 3 5 = 0b10001#5 ∧ (byteBrightness level).extractLsb' 0 3 = level := by
  revert level; decide

/-- A first byte encodes to itself again, under the name that the decoder gives it (R66). -/
theorem encodeWireByte_of_decodeFirstByte {b : Byte} {i : Instr} (h : decodeFirstByte b = some i) :
    encodeWireByte i = some b := by
  unfold decodeFirstByte at h
  split_ifs at h with h40 hC0 h88 hA0 h80 hbrightness <;> obtain rfl := Option.some.inj h
  · exact congrArg some h40.symm
  · exact congrArg some hC0.symm
  · exact congrArg some h88.symm
  · exact congrArg some hA0.symm
  · exact congrArg some h80.symm
  · exact congrArg some (byteBrightness_of_fields hbrightness)

/-- The twelve first bytes that R68 lists. -/
theorem decodeFirstByte_isSome_iff (b : Byte) :
    (decodeFirstByte b).isSome = true ↔
      (b = 0x40 ∨ b = 0xC0 ∨ b = 0x80 ∨ (0x88 ≤ b.toNat ∧ b.toNat ≤ 0x8F) ∨ b = 0xA0) := by
  revert b; decide

/-- Settles O5: the table's bytes, the two fields for every level, and the first bytes. -/
theorem wireCommandBytes : Obligations.WireCommandBytes := by
  refine ⟨⟨rfl, rfl, rfl, rfl, rfl⟩, fun level => ?_, rfl, decodeFirstByte_isSome_iff⟩
  obtain ⟨hcode, hlevel⟩ := byteBrightness_fields level
  exact ⟨byteBrightness level, rfl, hcode, hlevel⟩

/-- The first byte of the address command is read as it (R64). -/
theorem decodeFirstByte_address0 : decodeFirstByte byteAddress0 = some .cmdAddress0 := rfl

/-- Only `0xC0` is read as the address command (R64). -/
theorem eq_address0_of_decodeFirstByte {b : Byte} (h : decodeFirstByte b = some .cmdAddress0) : b = byteAddress0 :=
  (Option.some.inj (encodeWireByte_of_decodeFirstByte h)).symm

/-- The frames that decode are the address frames with 16 data bytes, and the command frames of one first byte that is not
the address command (R62, R69). -/
theorem decodeFrame_eq_some_iff {f : Frame} {is : List Instr} :
    decodeFrame f = some is ↔
      (∃ d : List Byte, d.length = 16 ∧ f = byteAddress0 :: d ∧ is = .cmdAddress0 :: d.map .wireDataByte) ∨
      (∃ (b : Byte) (i : Instr), f = [b] ∧ decodeFirstByte b = some i ∧ i ≠ .cmdAddress0 ∧ is = [i]) := by
  constructor
  · intro h
    cases f with
    | nil => simp [decodeFrame] at h
    | cons b data =>
      simp only [decodeFrame] at h
      split at h
      · simp at h
      · rename_i hb
        obtain rfl := eq_address0_of_decodeFirstByte hb
        split_ifs at h with hlen
        exact .inl ⟨data, hlen, rfl, (Option.some.inj h).symm⟩
      · rename_i i hi hb
        split_ifs at h with hdata
        obtain rfl := List.isEmpty_iff.mp hdata
        exact .inr ⟨b, i, rfl, hb, fun heq => hi (heq ▸ rfl), (Option.some.inj h).symm⟩
  · rintro (⟨d, hlen, rfl, rfl⟩ | ⟨b, i, rfl, hb, hi, rfl⟩)
    · simp [decodeFrame, decodeFirstByte_address0, hlen]
    · simp [decodeFrame, hb]

/-- Settles O6: the frames that decode, each byte of them by its own encoding, and the first bytes that R68 lists. -/
theorem wireFramesDecodeToTheirBytes : Obligations.WireFramesDecodeToTheirBytes := by
  refine ⟨fun f is h => ?bytes, fun f => ⟨fun h => ?decodes, fun h => ?listed⟩⟩
  case bytes =>
    obtain ⟨d, _, rfl, rfl⟩ | ⟨b, i, rfl, hb, _, rfl⟩ := decodeFrame_eq_some_iff.mp h
    · simp [encodeWireByte]
    · simp [encodeWireByte_of_decodeFirstByte hb]
  case decodes =>
    obtain ⟨is, his⟩ := Option.isSome_iff_exists.mp h
    obtain ⟨d, hlen, rfl, _⟩ | ⟨b, i, rfl, hb, hi, _⟩ := decodeFrame_eq_some_iff.mp his
    · exact .inl ⟨d, hlen, rfl⟩
    · refine .inr ⟨b, rfl, ?_⟩
      have hne : b ≠ byteAddress0 := by
        rintro rfl
        exact hi (Option.some.inj (hb.symm.trans decodeFirstByte_address0))
      obtain h40 | hC0 | h80 | h88 | hA0 := (decodeFirstByte_isSome_iff b).mp (by simp [hb])
      · exact .inl h40
      · exact absurd hC0 hne
      · exact .inr (.inl h80)
      · exact .inr (.inr (.inl h88))
      · exact .inr (.inr (.inr hA0))
  case listed =>
    obtain ⟨d, hlen, rfl⟩ | ⟨b, rfl, hb⟩ := h
    · exact Option.isSome_iff_exists.mpr ⟨_, decodeFrame_eq_some_iff.mpr (.inl ⟨d, hlen, rfl, rfl⟩)⟩
    · have hfirst : (decodeFirstByte b).isSome = true := by
        rw [decodeFirstByte_isSome_iff]; tauto
      obtain ⟨i, hi⟩ := Option.isSome_iff_exists.mp hfirst
      have hne : i ≠ .cmdAddress0 := by
        rintro rfl
        obtain rfl := eq_address0_of_decodeFirstByte hi
        revert hb; decide
      exact Option.isSome_iff_exists.mpr ⟨_, decodeFrame_eq_some_iff.mpr (.inr ⟨b, i, rfl, hi, hne, rfl⟩)⟩

end Sys2Proof
end

section
/-! PROOF. The event sequences of the internal primitives are read back as those primitives (R57 to R61, R85 to R89): how
many events each has, which levels it writes on DIN, and from these the decoder's answer. -/

namespace Sys2Proof.Machine

/-! ### How many events a sequence has -/

@[simp] theorem bitCell_length (t : Timing) (b : Level) : (bitCell t b).length = 5 := rfl

@[simp] theorem byteCells_length (t : Timing) (x : Byte) : (byteCells t x).length = 40 := rfl

@[simp] theorem startCondition_length (t : Timing) : (startCondition t).length = 5 := rfl

@[simp] theorem endCondition_length (t : Timing) : (endCondition t).length = 6 := rfl

/-- A frame has the 11 events of its two conditions and 40 for each byte (R153). -/
theorem frameEvents_length (t : Timing) (xs : Frame) : (frameEvents t xs).length = 11 + 40 * xs.length := by
  simp [frameEvents, List.length_flatMap]; omega

@[simp] theorem commandFrame_length (t : Timing) (x : Byte) : (commandFrame t x).length = 51 :=
  frameEvents_length t [x]

/-- Sequences of another number of events are not the same. -/
theorem ne_of_length_ne {es es' : List Event} (h : es.length ≠ es'.length) : es ≠ es' :=
  fun heq => h (congrArg List.length heq)

/-- A bit cell is no start condition: it drives DIN where the start condition holds CLK low (R57, R59). -/
theorem bitCell_ne_startCondition (t t' : Timing) (b : Level) : bitCell t b ≠ startCondition t' := by
  simp [bitCell, startCondition]

/-- A bit cell tells its bit (R57). -/
theorem bitCell_inj {t : Timing} {b b' : Level} (h : bitCell t b = bitCell t b') : b = b' := by
  simpa [bitCell] using h

/-! ### The levels on DIN -/

theorem dinLevels_append (es es' : List Event) : dinLevels (es ++ es') = dinLevels es ++ dinLevels es' := by
  induction es using dinLevels.induct <;> simp_all [dinLevels]

/-- The cells of a byte write its bits on DIN, bit 7 first (R61). -/
theorem dinLevels_byteCells (t : Timing) (x : Byte) :
    dinLevels (byteCells t x) =
      [x.getLsbD 7, x.getLsbD 6, x.getLsbD 5, x.getLsbD 4, x.getLsbD 3, x.getLsbD 2, x.getLsbD 1, x.getLsbD 0] := rfl

/-- A command frame writes the two levels of its start condition, the bits of its byte, and the two levels of its end
condition on DIN (R62). -/
theorem dinLevels_commandFrame (t : Timing) (x : Byte) :
    dinLevels (commandFrame t x) = [true, false] ++ dinLevels (byteCells t x) ++ [false, true] := rfl

/-- The byte that the decoder reads in the cells of a byte. -/
theorem byteOfBits_byteCells (t : Timing) (x : Byte) : byteOfBits ((dinLevels (byteCells t x)).take 8) = x :=
  byteOfBits_self x

/-- The byte that the decoder reads in a command frame, after the two levels of the start condition. -/
theorem byteOfBits_commandFrame (t : Timing) (x : Byte) :
    byteOfBits (((dinLevels (commandFrame t x)).drop 2).take 8) = x :=
  byteOfBits_self x

/-! ### What the decoder reads -/

theorem decodeEvents_startCondition (t : Timing) : decodeEvents t (startCondition t) = some .startSignal :=
  if_pos rfl

theorem decodeEvents_endCondition (t : Timing) : decodeEvents t (endCondition t) = some .endSignal := by
  rw [decodeEvents, if_neg (ne_of_length_ne (by simp)), if_pos rfl]

theorem decodeEvents_bitCell (t : Timing) (b : Level) : decodeEvents t (bitCell t b) = some (.sendBit b) := by
  rw [decodeEvents, if_neg (bitCell_ne_startCondition t t b), if_neg (ne_of_length_ne (by simp))]
  cases b with
  | false => rw [if_pos rfl]
  | true => rw [if_neg fun h => absurd (bitCell_inj h) (by decide), if_pos rfl]

/-- A sequence longer than the bit cell and the two conditions is the cells of a byte or a command frame, or none. -/
theorem decodeEvents_of_long (t : Timing) {es : List Event} (h : 6 < es.length) :
    decodeEvents t es =
      if es = byteCells t (byteOfBits ((dinLevels es).take 8)) then
        some (.sendByte (byteOfBits ((dinLevels es).take 8)).toNat)
      else if es = commandFrame t (byteOfBits (((dinLevels es).drop 2).take 8)) then
        some (.sendCommand (byteOfBits (((dinLevels es).drop 2).take 8)).toNat)
      else none := by
  rw [decodeEvents, if_neg (ne_of_length_ne (by simp; omega)), if_neg (ne_of_length_ne (by simp; omega)),
    if_neg (ne_of_length_ne (by simp; omega)), if_neg (ne_of_length_ne (by simp; omega))]

theorem decodeEvents_byteCells (t : Timing) (x : Byte) :
    decodeEvents t (byteCells t x) = some (.sendByte x.toNat) := by
  rw [decodeEvents_of_long t (by simp), byteOfBits_byteCells, if_pos rfl]

theorem decodeEvents_commandFrame (t : Timing) (x : Byte) :
    decodeEvents t (commandFrame t x) = some (.sendCommand x.toNat) := by
  rw [decodeEvents_of_long t (by simp), if_neg (ne_of_length_ne (by simp)), byteOfBits_commandFrame, if_pos rfl]

/-- The low 8 bits of a number, as a number (R80). -/
theorem toNat_ofInt_byte (x : Int) : ((BitVec.ofInt 8 x).toNat : Int) = x % 256 := by
  rw [BitVec.toNat_ofInt]
  omega

/-- Settles O7: each sequence by what the decoder reads in it. -/
theorem primitiveEventsReadBack : Obligations.PrimitiveEventsReadBack := by
  intro t
  refine ⟨fun es h => ?start, fun es h => ?stop, fun b es h => ?bit, fun x es h => ?byte, fun x es h => ?command⟩ <;>
    obtain rfl := Option.some.inj h
  case start => exact decodeEvents_startCondition t
  case stop => exact decodeEvents_endCondition t
  case bit => exact decodeEvents_bitCell t b
  case byte => rw [decodeEvents_byteCells, toNat_ofInt_byte]
  case command => rw [decodeEvents_commandFrame, toNat_ofInt_byte]

end Sys2Proof.Machine
end

section
/-! PROOF. What the rows of the wire commands and the internal primitives put on the wire (R64, R65, R85 to R90), and the
requests as runs of them (R63, R83). -/

namespace Sys2Proof.Machine

/-! ### One row -/

/-- The instruction appends these events, in every state without a fault, and does nothing else. -/
def Drives (i : Instr) (es : List Event) : Prop := ∀ s : State, s.fault = none → exec i s = .next (s.emit es)

/-- An action of the block that appends events takes place without a fault (R130). -/
theorem drives_of_perform {i : Instr} {es : List Event} (h : ∀ s, exec i s = perform s fun s => s.emit es) :
    Drives i es := fun s hf => by
  simp [h, perform, hf]

theorem drives_cmdAutoIncrement : Drives .cmdAutoIncrement (frameEvents Config.timing [byteAutoIncrement]) :=
  drives_of_perform fun _ => rfl

theorem drives_cmdDisplayOnDefault : Drives .cmdDisplayOnDefault (frameEvents Config.timing [byteDisplayOnDefault]) :=
  drives_of_perform fun _ => rfl

theorem drives_cmdTurnOn : Drives .cmdTurnOn (frameEvents Config.timing [byteTurnOn]) :=
  drives_of_perform fun _ => rfl

theorem drives_cmdDisplayOff : Drives .cmdDisplayOff (frameEvents Config.timing [byteDisplayOff]) :=
  drives_of_perform fun _ => rfl

theorem drives_cmdBrightness (level : BitVec 3) :
    Drives (.cmdBrightness level) (frameEvents Config.timing [byteBrightness level]) :=
  drives_of_perform fun _ => rfl

theorem drives_cmdAddress0 :
    Drives .cmdAddress0 (startCondition Config.timing ++ byteCells Config.timing byteAddress0) :=
  drives_of_perform fun _ => rfl

theorem drives_wireDataByte (d : Byte) : Drives (.wireDataByte d) (byteCells Config.timing d) :=
  drives_of_perform fun _ => rfl

theorem drives_endSignal : Drives .endSignal (endCondition Config.timing) :=
  drives_of_perform fun _ => rfl

theorem drives_sendCommand (x : Int) : Drives (.sendCommand x) (commandFrame Config.timing (low8 x)) :=
  drives_of_perform fun _ => rfl

/-! ### The levels that a row leaves -/

/-- A byte leaves the clock at 1 and its bit 0 on DIN (R61, R86). -/
theorem byteCells_levels (t : Timing) (x : Byte) (l : Option Level) :
    lastLevel .clk (byteCells t x) l = some true ∧ lastLevel .din (byteCells t x) l = some (x.getLsbD 0) :=
  ⟨rfl, rfl⟩

/-- A frame is emitted as its events and leaves both lines at 1 (R38). -/
theorem emit_frameEvents (s : State) (xs : Frame) :
    s.emit (frameEvents Config.timing xs) =
      { s with trace := s.trace ++ frameEvents Config.timing xs, clk := some true, din := some true } := by
  simp only [State.emit, frameEvents_levels]

/-- Events that end with a byte leave the clock at 1 and the byte's bit 0 on DIN (R86). -/
theorem emit_append_byteCells (s : State) (es : List Event) (x : Byte) :
    s.emit (es ++ byteCells Config.timing x) =
      { s with trace := s.trace ++ (es ++ byteCells Config.timing x), clk := some true, din := some (x.getLsbD 0) } := by
  simp only [State.emit, lastLevel_append, byteCells_levels]

/-- The brightness command of a level is the number `0x88` and the level (R65). -/
theorem byteBrightness_toNat (level : BitVec 3) : (byteBrightness level).toNat = 0x88 + level.toNat := by
  revert level; decide

/-- Settles O17: each row by the events it drives, and the levels these leave. -/
theorem wireCommandsAreSent : Obligations.WireCommandsAreSent := by
  intro s hf
  refine ⟨fun i b hrow => ?frames, ?address, fun d => ?data⟩
  case frames =>
    have hdrives : Drives i (frameEvents Config.timing [b]) := by
      obtain ⟨rfl, rfl⟩ | ⟨rfl, rfl⟩ | ⟨rfl, rfl⟩ | ⟨rfl, rfl⟩ | ⟨level, rfl, hb⟩ := hrow
      · exact drives_cmdAutoIncrement
      · exact drives_cmdDisplayOnDefault
      · exact drives_cmdTurnOn
      · exact drives_cmdDisplayOff
      · obtain rfl : b = byteBrightness level := BitVec.eq_of_toNat_eq (hb.trans (byteBrightness_toNat level).symm)
        exact drives_cmdBrightness level
    exact ⟨_, (hdrives s hf).trans (congrArg _ (emit_frameEvents s [b])), rfl, frameEvents_length _ _,
      says_frameEvents _ _⟩
  case address => exact (drives_cmdAddress0 s hf).trans (congrArg _ (emit_append_byteCells s _ _))
  case data => exact (drives_wireDataByte d s hf).trans (congrArg _ (emit_append_byteCells s [] d))

/-! ### Rows one after the other -/

/-- The instructions run one after the other append these events and do nothing else. -/
def DrivesAll (is : List Instr) (es : List Event) : Prop :=
  ∀ s : State, s.fault = none → execAll is s = .next (s.emit es)

theorem drivesAll_nil : DrivesAll [] [] := fun s _ => by simp [execAll]

theorem Drives.cons {i : Instr} {is : List Instr} {es es' : List Event} (h : Drives i es) (h' : DrivesAll is es') :
    DrivesAll (i :: is) (es ++ es') := by
  intro s hf
  simp only [execAll, h s hf]
  rw [h' (s.emit es) hf, State.emit_emit]

/-- The data bytes of a frame, and what comes after them. -/
theorem drivesAll_wireDataBytes {is : List Instr} {es : List Event} (h : DrivesAll is es) (ds : List Byte) :
    DrivesAll (ds.map .wireDataByte ++ is) (ds.flatMap (byteCells Config.timing) ++ es) := by
  induction ds with
  | nil => exact h
  | cons d ds ih =>
    rw [List.flatMap_cons, List.append_assoc]
    exact (drives_wireDataByte d).cons ih

/-- The wire rows of a write drive its three frames (R63, R90). -/
theorem drivesAll_writeRows (ds : List Byte) :
    DrivesAll ([.cmdAutoIncrement, .cmdAddress0] ++ ds.map .wireDataByte ++ [.endSignal, .cmdDisplayOnDefault])
      (writeFrameEvents Config.timing ds) := by
  have hclose := drives_endSignal.cons (drives_cmdDisplayOnDefault.cons drivesAll_nil)
  have hrows := drives_cmdAutoIncrement.cons (drives_cmdAddress0.cons (drivesAll_wireDataBytes hclose ds))
  have hevents : frameEvents Config.timing [byteAutoIncrement] ++
      (startCondition Config.timing ++ byteCells Config.timing byteAddress0 ++
        (ds.flatMap (byteCells Config.timing) ++
          (endCondition Config.timing ++ (frameEvents Config.timing [byteDisplayOnDefault] ++ [])))) =
      writeFrameEvents Config.timing ds := by
    simp [writeFrameEvents, writeFrames, frameEvents]
  rw [← hevents, List.append_assoc]
  exact hrows

/-- WRITE_FRAME of 16 elements on a ready block sends its three frames and answers (R90). -/
theorem exec_writeFrame_accepted {s : State} (hr : Ready s) {data : List Int} (hlen : data.length = 16) :
    exec (.writeFrame data) s =
      .next ((s.emit (writeFrameEvents Config.timing (data.map low8))).respond ⟨.ok, none⟩) := by
  rw [exec_writeFrame_ready hr, checkWriteFrame, if_neg (by simp [hlen]), finish]

/-- Settles O19: the rows drive the events of the write, which WRITE_FRAME sends. -/
theorem writeFrameIsTheRunOfItsWireRows : Obligations.WriteFrameIsTheRunOfItsWireRows := by
  intro s data hr hlen
  have ⟨hf, _⟩ := hr
  have hrows := drivesAll_writeRows (data.map low8) s hf
  rw [List.map_map] at hrows
  exact ⟨_, hrows, exec_writeFrame_accepted hr hlen⟩

/-! ### The requests as SEND_COMMAND, WRITE_FRAME and RENDER -/

/-- The byte `0x88 | level` of a level in 0..7 is the number `0x88 + level` (R93). -/
theorem low8_brightness {level : Int} (hlo : 0 ≤ level) (hhi : level ≤ 7) :
    low8 (0x88 + level) = byteDisplayOnDefault ||| low8 level := by
  have hlevels : ∀ n < 8, low8 (0x88 + (n : Nat)) = byteDisplayOnDefault ||| low8 (n : Nat) := by decide
  obtain ⟨n, rfl⟩ := Int.eq_ofNat_of_zero_le hlo
  exact hlevels n (by omega)

/-- A byte given as its number is that byte (R80). -/
theorem low8_toNat (v : Byte) : low8 (v.toNat : Int) = v := by
  rw [low8, BitVec.ofInt_natCast, BitVec.ofNat_toNat, BitVec.setWidth_eq]

/-- BRIGHTNESS of a level in 0..7 on a ready block sends its frame and answers (R93). -/
theorem exec_brightness_accepted {s : State} (hr : Ready s) {level : Int} (hlo : 0 ≤ level) (hhi : level ≤ 7) :
    exec (.brightness level) s =
      .next ((s.emit (commandFrame Config.timing (byteDisplayOnDefault ||| low8 level))).respond ⟨.ok, none⟩) := by
  rw [exec_brightness_ready hr, checkBrightness, if_neg (by omega), finish]

/-- RENDER on a ready block sends the frames of the pixel register and answers (R100). -/
theorem exec_render_accepted {s : State} (hr : Ready s) : exec .render s = .next (s.render.respond ⟨.ok, none⟩) :=
  exec_render_ready hr

/-- RENDER is WRITE_FRAME of the pixel register's bytes (R83). -/
theorem exec_render_eq_writeFrame {s : State} (hr : Ready s) :
    exec .render s = exec (.writeFrame (s.buf.toList.map fun v => (v.toNat : Int))) s := by
  have hbytes : (s.buf.toList.map fun v => (v.toNat : Int)).map low8 = bytesOf s.buf := by
    simp [bytesOf, Function.comp_def, low8_toNat]
  rw [exec_render_accepted hr, exec_writeFrame_accepted hr (by simp), hbytes]
  rfl

/-- CLEAR is RENDER of the zeroed pixel register (R83, R101). -/
theorem exec_clear_eq_render {s : State} (hr : Ready s) :
    exec .clear s = exec .render { s with buf := Vector.replicate 16 0 } :=
  (exec_clear_ready hr).trans (exec_render_ready (s := { s with buf := Vector.replicate 16 0 }) hr).symm

/-- Settles O22: SEND_COMMAND drives the frame that each request sends, and the two equalities of outcomes. -/
theorem requestsExpandAsListed : Obligations.RequestsExpandAsListed := by
  intro s hr
  have ⟨hf, _⟩ := hr
  refine ⟨⟨_, drives_sendCommand _ s hf, exec_turnOn_ready hr⟩, ⟨_, drives_sendCommand _ s hf, exec_turnOff_ready hr⟩,
    fun level ⟨hlo, hhi⟩ => ⟨_, drives_sendCommand _ s hf, ?brightness⟩, exec_render_eq_writeFrame hr,
    exec_clear_eq_render hr⟩
  case brightness => rw [low8_brightness hlo hhi]; exact exec_brightness_accepted hr hlo hhi

end Sys2Proof.Machine
end

section
/-! PROOF. What a receiver reads of whole frames (R70, R71), and what the display shows after a render (R73). -/

namespace Sys2Proof.Machine

/-- Settles O23: the lemma holds for every frame. -/
theorem framesDecodeToTheirBytes : Obligations.FramesDecodeToTheirBytes := fun t xs _ => says_frameEvents t xs

/-- Events said one after the other say their frames one after the other (R71). -/
theorem Says.append {es es' : List Event} {fs fs' : List Frame} (h : Says es fs) (h' : Says es' fs') :
    Says (es ++ es') (fs ++ fs') := by
  intro ρ hρ
  rw [receiveAll_append, h ρ hρ, h' _ rfl, List.append_assoc]

/-- A write says its three frames (R63, R71). -/
theorem says_writeFrameEvents (t : Timing) (d : List Byte) : Says (writeFrameEvents t d) (writeFrames d) := by
  have h := (says_frameEvents t [byteAutoIncrement]).append
    ((says_frameEvents t (byteAddress0 :: d)).append (says_frameEvents t [byteDisplayOnDefault]))
  simpa [writeFrameEvents, writeFrames] using h

/-- Events that come while no frame is open add their frames to the trace's (R71). -/
theorem decodeTrace_append_of_says {es es' : List Event} {fs : List Frame}
    (hclosed : (receiveAll Receiver.start es).inFrame = false) (h : Says es' fs) :
    decodeTrace (es ++ es') = decodeTrace es ++ fs := by
  rw [decodeTrace, receiveAll_append, h _ hclosed]
  rfl

/-- Frames already read leave the display with some columns, from which it reads on (R73). -/
theorem displayAfter_append (held : Option (List Byte)) (fs gs : List Frame) :
    ∃ held', displayAfter held (fs ++ gs) = displayAfter held' gs := by
  induction fs generalizing held with
  | nil => exact ⟨held, rfl⟩
  | cons f fs ih =>
    have hfirst : ∃ held', displayAfter held (f :: (fs ++ gs)) = displayAfter held' (fs ++ gs) := by
      cases fs ++ gs with
      | nil => exact ⟨held, rfl⟩
      | cons g rest =>
        rw [displayAfter]
        split
        · exact ⟨_, rfl⟩
        · exact ⟨_, rfl⟩
    obtain ⟨held₁, h₁⟩ := hfirst
    obtain ⟨held₂, h₂⟩ := ih held₁
    exact ⟨held₂, h₁.trans h₂⟩

/-- After the frames of a write the display holds the 16 bytes written, whatever it held before (R73). -/
theorem displayAfter_writeFrames (held : Option (List Byte)) {d : List Byte} (hd : d.length = 16) :
    displayAfter held (writeFrames d) = some d := by
  simp [writeFrames, displayAfter, hd, byteAutoIncrement, byteAddress0]

/-- A render, once answered, has continued the session with its events (R100). -/
theorem continues_render (s : State) (r : Response) (hs : s.initialized = true) :
    Continues s (renderEvents s.buf) (s.render.respond r) := by
  constructor <;> simp [hs]

/-- Settles O54: the render's three frames come after the frames of the session, and the display takes its columns from
them. -/
theorem displayShowsTheRenderedBuffer : Obligations.DisplayShowsTheRenderedBuffer := by
  intro s hr hagree hclosed
  have ⟨_, _, hinit⟩ := hr
  refine ⟨_, exec_render_accepted hr, ?_⟩
  rw [displayColumns, (continues_render s _ hinit).sessionTrace hagree, renderEvents,
    decodeTrace_append_of_says hclosed (says_writeFrameEvents Config.timing (bytesOf s.buf))]
  obtain ⟨held, hheld⟩ := displayAfter_append none (decodeTrace s.sessionTrace) (writeFrames (bytesOf s.buf))
  rw [hheld, displayAfter_writeFrames held (bytesOf_length s.buf)]
  rfl

end Sys2Proof.Machine
end

section
/-! PROOF. The wire encoder as a sequencer of one event a step (R95): its runs one after the other, and the runs that emit
a bit cell, a byte, a frame and the frames. -/

namespace Sys2Proof.Machine

/-! ### Runs of the sequencer -/

/-- The sequencer emits these events, one a step, and is then the second one. -/
def Emits (t : Timing) (e : Encoder) (es : List Event) (e' : Encoder) : Prop := encoderRun t es.length e = (es, e')

theorem emits_nil (t : Timing) (e : Encoder) : Emits t e [] e := rfl

/-- A run begins with one step. -/
theorem emits_cons_iff {t : Timing} {e e' : Encoder} {ev : Event} {es : List Event} :
    Emits t e (ev :: es) e' ↔ ∃ e₁, encoderStep t e = some (ev, e₁) ∧ Emits t e₁ es e' := by
  simp only [Emits, List.length_cons, encoderRun]
  cases hstep : encoderStep t e with
  | none => simp
  | some p => obtain ⟨ev₁, e₁⟩ := p; simp [Prod.ext_iff, and_assoc]

/-- One run after the other is a run of all their events. -/
theorem Emits.append {t : Timing} {e e' e'' : Encoder} {es es' : List Event} (h : Emits t e es e')
    (h' : Emits t e' es' e'') : Emits t e (es ++ es') e'' := by
  induction es generalizing e with
  | nil => obtain rfl : e = e' := congrArg Prod.snd h; exact h'
  | cons ev es ih =>
    obtain ⟨e₁, hstep, hrest⟩ := emits_cons_iff.mp h
    exact emits_cons_iff.mpr ⟨e₁, hstep, ih hrest⟩

/-! ### The phases of a frame -/

section
variable (t : Timing) (xs : Frame) (rest : List Frame)

/-- The phases `s0` to `s4` are the start condition (R87, R95). -/
theorem emits_startCondition : Emits t ⟨xs :: rest, .s0⟩ (startCondition t) ⟨xs :: rest, .cell 0 7 .p0⟩ := rfl

/-- The phases `e0` to `e5` are the end condition, after which the frame is done (R88, R95). -/
theorem emits_endCondition : Emits t ⟨xs :: rest, .e0⟩ (endCondition t) ⟨rest, .s0⟩ := rfl

/-- The sub-steps `p0` to `p4` are a bit cell (R85, R95). -/
theorem emits_bitCell (k i : Nat) :
    Emits t ⟨xs :: rest, .cell k i .p0⟩ (bitCell t ((xs.getD k 0).getLsbD i))
      ⟨xs :: rest, phaseNext xs (.cell k i .p4)⟩ := rfl

/-- From bit i of a byte on, the sequencer emits the cells of the bits i to 0 (R86, R95). -/
theorem emits_cellsFrom (k i : Nat) :
    Emits t ⟨xs :: rest, .cell k i .p0⟩
      ((List.range (i + 1)).reverse.flatMap fun j => bitCell t ((xs.getD k 0).getLsbD j))
      ⟨xs :: rest, if k + 1 < xs.length then .cell (k + 1) 7 .p0 else .e0⟩ := by
  induction i with
  | zero => exact emits_bitCell t xs rest k 0
  | succ i ih =>
    rw [List.range_succ, List.reverse_append, List.flatMap_append]
    exact (emits_bitCell t xs rest k (i + 1)).append ih

/-- Byte k of a frame is emitted as its cells, and the next byte or the end condition follows (R86, R95). -/
theorem emits_byteCells (k : Nat) :
    Emits t ⟨xs :: rest, .cell k 7 .p0⟩ (byteCells t (xs.getD k 0))
      ⟨xs :: rest, if k + 1 < xs.length then .cell (k + 1) 7 .p0 else .e0⟩ :=
  emits_cellsFrom t xs rest k 7

end

/-- After the bytes already sent, the next one is emitted, and then the byte after it or, if it was the last, the end
condition. -/
theorem emits_nextByte (t : Timing) (rest : List Frame) (sent : List Byte) (x : Byte) (xs : List Byte) :
    Emits t ⟨(sent ++ x :: xs) :: rest, .cell sent.length 7 .p0⟩ (byteCells t x)
      ⟨(sent ++ x :: xs) :: rest, if xs = [] then .e0 else .cell (sent.length + 1) 7 .p0⟩ := by
  have h := emits_byteCells t (sent ++ x :: xs) rest sent.length
  rw [List.getD_append_right _ _ _ _ le_rfl, Nat.sub_self, List.getD_cons_zero] at h
  cases xs with
  | nil => simpa using h
  | cons y ys => simpa using h

/-- The bytes of a frame that are still to come, one at least, are emitted in order, and the end condition follows. -/
theorem emits_bytesFrom (t : Timing) (rest : List Frame) (sent : List Byte) (x : Byte) (xs : List Byte) :
    Emits t ⟨(sent ++ x :: xs) :: rest, .cell sent.length 7 .p0⟩ ((x :: xs).flatMap (byteCells t))
      ⟨(sent ++ x :: xs) :: rest, .e0⟩ := by
  induction xs generalizing sent x with
  | nil => exact (emits_nextByte t rest sent x []).append (emits_nil t _)
  | cons y ys ih =>
    have hrest := ih (sent ++ [x]) y
    rw [List.append_assoc, List.length_append] at hrest
    exact (emits_nextByte t rest sent x (y :: ys)).append hrest

/-- A frame of one byte or more is emitted as its events, and the next frame follows (R58, R95). -/
theorem emits_frameEvents (t : Timing) {xs : Frame} (hxs : xs ≠ []) (rest : List Frame) :
    Emits t ⟨xs :: rest, .s0⟩ (frameEvents t xs) ⟨rest, .s0⟩ := by
  obtain ⟨x, xs, rfl⟩ := List.exists_cons_of_ne_nil hxs
  exact ((emits_startCondition t (x :: xs) rest).append (emits_bytesFrom t rest [] x xs)).append
    (emits_endCondition t (x :: xs) rest)

/-- Settles O24, frame by frame. -/
theorem encoderPhasesEmitTheFrames : Obligations.EncoderPhasesEmitTheFrames := by
  intro t fs hfs
  change Emits t ⟨fs, .s0⟩ (fs.flatMap (frameEvents t)) ⟨[], .s0⟩
  induction fs with
  | nil => exact emits_nil t _
  | cons f fs ih =>
    obtain ⟨hf, hrest⟩ := List.forall_mem_cons.mp hfs
    exact (emits_frameEvents t hf fs).append (ih hrest)

end Sys2Proof.Machine
end

section
/-! PROOF. The events of the internal primitives written out (R85 to R89). -/

namespace Sys2Proof.Machine

theorem drives_sendBit (b : Level) : Drives (.sendBit b) (bitCell Config.timing b) :=
  drives_of_perform fun _ => rfl

theorem drives_sendByte (x : Int) : Drives (.sendByte x) (byteCells Config.timing (low8 x)) :=
  drives_of_perform fun _ => rfl

theorem drives_startSignal : Drives .startSignal (startCondition Config.timing) :=
  drives_of_perform fun _ => rfl

/-- Settles O15: each primitive drives its sequence, whose events, delays and last levels are those of the normative
timing. -/
theorem bitStartAndEndEvents : Obligations.BitStartAndEndEvents :=
  fun s hf => ⟨fun b => drives_sendBit b s hf, drives_startSignal s hf, drives_endSignal s hf⟩

/-- The byte that a number sends is the byte whose value is the number modulo 256 (R80). -/
theorem low8_eq_of_toNat {v : Byte} {x : Int} (h : (v.toNat : Int) = x % 256) : low8 x = v :=
  BitVec.eq_of_toNat_eq (Int.ofNat_inj.mp ((toNat_ofInt_byte x).trans h.symm))

/-- Settles O16: both primitives send the low 8 bits, and the levels are those after a byte and after a frame. -/
theorem byteAndCommandEvents : Obligations.ByteAndCommandEvents := by
  intro s x v hf hv
  obtain rfl := low8_eq_of_toNat hv
  refine ⟨?byte, _, ?command, rfl, commandFrame_length _ _, says_frameEvents _ [low8 x]⟩
  case byte => exact (drives_sendByte x s hf).trans (congrArg _ (emit_append_byteCells s [] _))
  case command => exact (drives_sendCommand x s hf).trans (congrArg _ (emit_frameEvents s [low8 x]))

end Sys2Proof.Machine
end

section
/-! PROOF. The host requests of the wire protocol on a ready block (R90 to R93): the whole next state of each. -/

namespace Sys2Proof.Machine

/-- A request that sends events which leave both lines at 1, and is answered, changes nothing else (R38). -/
theorem emit_respond {es : List Event} (hes : ∀ line l, lastLevel line es l = some true) (s : State) (r : Response) :
    (s.emit es).respond r =
      { s with trace := s.trace ++ es, clk := some true, din := some true, results := s.results ++ [r] } := by
  simp only [State.respond, State.emit, hes]

/-- The same for one frame. -/
theorem emit_frameEvents_respond (s : State) (xs : Frame) (r : Response) :
    (s.emit (frameEvents Config.timing xs)).respond r =
      { s with
        trace := s.trace ++ frameEvents Config.timing xs, clk := some true, din := some true,
        results := s.results ++ [r] } :=
  emit_respond (frameEvents_levels _ xs) s r

/-- WRITE_FRAME of another number of elements is answered and does nothing (R90). -/
theorem exec_writeFrame_rejected {s : State} (hr : Ready s) {data : List Int} (hlen : data.length ≠ 16) :
    exec (.writeFrame data) s = .next (s.respond ⟨.invalidDimensions, none⟩) := by
  rw [exec_writeFrame_ready hr, checkWriteFrame, if_pos hlen]
  rfl

/-- The bytes that numbers send are the bytes whose values are the numbers modulo 256 (R80, R90). -/
theorem map_low8_eq_of_toNat {bytes : List Byte} {data : List Int}
    (h : bytes.map (fun v => (v.toNat : Int)) = data.map (· % 256)) : data.map low8 = bytes := by
  have hvalues : (data.map low8).map (fun v => (v.toNat : Int)) = bytes.map (fun v => (v.toNat : Int)) := by
    rw [h, List.map_map]
    exact List.map_congr_left fun x _ => toNat_ofInt_byte x
  exact List.map_injective_iff.mpr (fun _ _ hv => BitVec.eq_of_toNat_eq (Int.ofNat_inj.mp hv)) hvalues

/-- A write is its three frames, one after the other (R63, R90). -/
theorem writeFrameEvents_eq (t : Timing) (d : List Byte) :
    writeFrameEvents t d =
      frameEvents t [byteAutoIncrement] ++ frameEvents t (byteAddress0 :: d) ++ frameEvents t [byteDisplayOnDefault] := by
  simp [writeFrameEvents, writeFrames]

/-- A write of 16 bytes has 793 events (R153). -/
theorem writeFrameEvents_length (t : Timing) {d : List Byte} (hd : d.length = 16) :
    (writeFrameEvents t d).length = 793 := by
  simp [writeFrameEvents_eq, frameEvents_length, hd]

/-- Settles O18: the rejection and the write of the low 8 bits. -/
theorem writeFrameSendsThreeFrames : Obligations.WriteFrameSendsThreeFrames := by
  refine fun s data hr => ⟨exec_writeFrame_rejected hr, fun hlen bytes hbytes => ?_⟩
  obtain rfl := map_low8_eq_of_toNat hbytes
  exact ⟨_, (exec_writeFrame_accepted hr hlen).trans (congrArg _ (emit_respond (writeFrameEvents_levels _ _) s _)),
    writeFrameEvents_eq _ _, writeFrameEvents_length _ (by simpa using hlen), says_writeFrameEvents _ _⟩

/-- Settles O20: each request sends the frame of its byte. -/
theorem turnOnAndTurnOff : Obligations.TurnOnAndTurnOff := by
  intro s hr i b hrow
  have hexec : exec i s = .next ((s.emit (frameEvents Config.timing [b])).respond ⟨.ok, none⟩) := by
    obtain ⟨rfl, rfl⟩ | ⟨rfl, rfl⟩ := hrow
    · exact exec_turnOn_ready hr
    · exact exec_turnOff_ready hr
  exact ⟨_, hexec.trans (congrArg _ (emit_frameEvents_respond s [b] _)), rfl, frameEvents_length _ _,
    says_frameEvents _ _⟩

/-- BRIGHTNESS of another level is answered and does nothing (R93). -/
theorem exec_brightness_rejected {s : State} (hr : Ready s) {level : Int} (hlevel : level < 0 ∨ level > 7) :
    exec (.brightness level) s = .next (s.respond ⟨.outOfRange, none⟩) := by
  rw [exec_brightness_ready hr, checkBrightness, if_pos hlevel]
  rfl

/-- Settles O21: the rejection, and the byte `0x88 | level` as the number that it is. -/
theorem brightnessSendsItsLevel : Obligations.BrightnessSendsItsLevel := by
  refine fun s level hr => ⟨exec_brightness_rejected hr, fun ⟨hlo, hhi⟩ b hb => ?_⟩
  have hbyte : byteDisplayOnDefault ||| low8 level = b := by rw [← low8_brightness hlo hhi, ← hb, low8_toNat]
  have hexec := exec_brightness_accepted hr hlo hhi
  rw [hbyte] at hexec
  exact ⟨_, hexec.trans (congrArg _ (emit_frameEvents_respond s [b] _)), rfl, says_frameEvents _ _⟩

end Sys2Proof.Machine
end

section
/-! PROOF. What a host request sends is whole frames of the output language (R62, R68, R94), and only seven requests send
any (R50, R117). -/

namespace Sys2Proof.Machine

/-- The requests that may send frames. -/
def MaySend (i : Instr) : Prop :=
  (∃ d, i = .writeFrame d) ∨ i = .turnOn ∨ i = .turnOff ∨ (∃ l, i = .brightness l) ∨ i = .render ∨ i = .clear ∨
    ∃ g, i = .loadImage g

/-- Every other request keeps the trace: whether it is answered, faults or is accepted, it emits nothing (R50, R117). -/
theorem exec_trace {i : Instr} {s t : State} (hi : encodeRequest i ≠ none) (hsend : ¬MaySend i)
    (h : exec i s = .next t) : t.trace = s.trace := by
  cases i with
  | init | setPixel | drawRect | drawLine =>
    exact keeps_of_admission State.trace (fun _ => rfl) (keeps_of_finish _ (fun _ => rfl) fun _ => rfl) h
  | parsePattern | readBuffer | transpose | buildScrollBitmap =>
    exact keeps_of_admission State.trace (fun _ => rfl) (keeps_of_finishWith _ (fun _ => rfl) fun _ => rfl) h
  | scrollText =>
    dsimp only [exec, execScrollText] at h
    refine keeps_of_admission State.trace (fun _ => rfl) (fun hrun => ?_) h
    split at hrun <;> (obtain rfl := Host.Outcome.next.inj hrun; rfl)
  | illegalRequest =>
    obtain ⟨_, _, rfl⟩ := execIllegalRequest_cases h
    rfl
  | writeFrame | turnOn | turnOff | brightness | render | clear | loadImage =>
    exact absurd (by simp [MaySend]) hsend
  | cmdAutoIncrement | cmdAddress0 | cmdDisplayOnDefault | cmdTurnOn | cmdDisplayOff | cmdBrightness | wireDataByte
  | sendBit | sendByte | startSignal | endSignal | sendCommand | scrollTick => exact absurd rfl hi

/-- The trace has grown by whole frames of the output language (R62, R68). -/
def SendsFrames (s t : State) : Prop :=
  ∃ fs : List Frame, t.trace = s.trace ++ fs.flatMap (frameEvents Config.timing) ∧
    ∀ f ∈ fs, (decodeFrame f).isSome = true

theorem sendsFrames_of_trace {s t : State} (h : t.trace = s.trace) : SendsFrames s t := ⟨[], by simp [h], by simp⟩

/-- A request sends whole frames if its effect does: a fault and a rejection send nothing (R124, R126). -/
theorem sendsFrames_of_request {r : Request} {check : Result} {effect : State → State} {s t : State}
    (heffect : check = .ok → SendsFrames s (effect s)) (h : admission r s (finish check effect) = .next t) :
    SendsFrames s t := by
  obtain ⟨_, ⟨_, rfl⟩ | ⟨_, _, rfl⟩ | ⟨_, _, _, _, rfl⟩ | ⟨_, _, _, h⟩⟩ := admission_cases h
  · exact sendsFrames_of_trace rfl
  · exact sendsFrames_of_trace rfl
  · exact sendsFrames_of_trace rfl
  · obtain ⟨hok, rfl⟩ | ⟨_, rfl⟩ := finish_cases h
    · exact heffect hok
    · exact sendsFrames_of_trace rfl

/-- A command byte of the output language, in a frame of its own, is sent as that frame (R62). -/
theorem sendsFrames_commandFrame (s : State) {b : Byte} (hb : (decodeFrame [b]).isSome = true) :
    SendsFrames s (s.emit (commandFrame Config.timing b)) :=
  ⟨[[b]], by simp [commandFrame], by simpa using hb⟩

/-- The frames of a write of 16 bytes are of the output language (R63, R68). -/
theorem decodeFrame_isSome_of_mem_writeFrames {d : List Byte} (hd : d.length = 16) {f : Frame}
    (hf : f ∈ writeFrames d) : (decodeFrame f).isSome = true := by
  have haddress : (decodeFrame (byteAddress0 :: d)).isSome = true := by simp [decodeFrame, decodeFirstByte_address0, hd]
  simp only [writeFrames, List.mem_cons, List.not_mem_nil, or_false] at hf
  obtain rfl | rfl | rfl := hf
  · rfl
  · exact haddress
  · rfl

/-- Sixteen bytes are sent as the three frames of a write (R63). -/
theorem sendsFrames_writeFrame (s : State) {d : List Byte} (hd : d.length = 16) :
    SendsFrames s (s.emit (writeFrameEvents Config.timing d)) :=
  ⟨writeFrames d, rfl, fun _ => decodeFrame_isSome_of_mem_writeFrames hd⟩

/-- A picture is sent as the three frames of its bytes, whatever the pixel register held (R100). -/
theorem sendsFrames_renderPicture (s : State) (b : PixelRegister) :
    SendsFrames s (State.render { s with buf := b }) :=
  sendsFrames_writeFrame s (bytesOf_length b)

/-- The brightness byte of a level in 0..7 is of the output language (R65, R68). -/
theorem decodeFrame_brightness {level : Int} (h : checkBrightness level = .ok) :
    (decodeFrame [byteDisplayOnDefault ||| low8 level]).isSome = true := by
  have hlevels : ∀ n < 8, (decodeFrame [byteDisplayOnDefault ||| low8 (n : Nat)]).isSome = true := by decide
  have hrange : ¬(level < 0 ∨ level > 7) := fun hout => by simp [checkBrightness, hout] at h
  obtain ⟨n, rfl⟩ := Int.eq_ofNat_of_zero_le (show 0 ≤ level by omega)
  exact hlevels n (by omega)

/-- The requests that may send frames send whole frames of the output language. -/
theorem exec_sendsFrames {i : Instr} {s t : State} (hsend : MaySend i) (h : exec i s = .next t) : SendsFrames s t := by
  obtain ⟨data, rfl⟩ | rfl | rfl | ⟨level, rfl⟩ | rfl | rfl | ⟨grid, rfl⟩ := hsend
  · refine sendsFrames_of_request (fun hok => sendsFrames_writeFrame s ?_) h
    rw [List.length_map]
    by_contra hlen
    simp [checkWriteFrame, hlen] at hok
  · exact sendsFrames_of_request (fun _ => sendsFrames_commandFrame s rfl) h
  · exact sendsFrames_of_request (fun _ => sendsFrames_commandFrame s rfl) h
  · exact sendsFrames_of_request (fun hok => sendsFrames_commandFrame s (decodeFrame_brightness hok)) h
  · exact sendsFrames_of_request (fun _ => sendsFrames_renderPicture s s.buf) h
  · exact sendsFrames_of_request (fun _ => sendsFrames_renderPicture s clearedBuffer) h
  · exact sendsFrames_of_request (fun _ => sendsFrames_renderPicture s (columnsOf (gridAt grid))) h

/-- Settles O52: the seven requests send whole frames, and every other one keeps the trace. -/
theorem requestsSendWholeFrames : Obligations.RequestsSendWholeFrames := by
  intro i r s t hr h
  by_cases hsend : MaySend i
  · obtain ⟨fs, htrace, hlanguage⟩ := exec_sendsFrames hsend h
    exact ⟨fs, htrace, hlanguage, fun _ => hsend⟩
  · exact ⟨[], by simp [exec_trace (by simp [hr]) hsend h], by simp, fun hne => absurd rfl hne⟩

end Sys2Proof.Machine
end

section
/-! PROOF. The loops of R105 and R106 over `setbit`, and the regions set at once: both by their 128 pixels (R96). -/

namespace Sys2Proof.Machine

theorem inRect_iff {x y w h : Int} {r c : Nat} :
    inRect x y w h r c = true ↔ y ≤ (r : Int) ∧ (r : Int) < y + h ∧ x ≤ (c : Int) ∧ (c : Int) < x + w :=
  decide_eq_true_iff

/-- A horizontal or vertical segment is the rectangle that its endpoints span, in either order (R106). -/
theorem onSegment_iff {r0 c0 r1 c1 : Int} (hline : r0 = r1 ∨ c0 = c1) {r c : Nat} :
    onSegment r0 c0 r1 c1 r c = true ↔
      min r0 r1 ≤ (r : Int) ∧ (r : Int) ≤ max r0 r1 ∧ min c0 c1 ≤ (c : Int) ∧ (c : Int) ≤ max c0 c1 := by
  unfold onSegment
  split
  · rw [decide_eq_true_iff]; omega
  · rw [decide_eq_true_iff]; omega

/-- The loop over k rows of one column sets the pixels of these rows in the grid (R105). -/
theorem pixel_columnLoop (col y : Int) (on : Bool) (k : Nat) (b : PixelRegister) {r c : Nat} (hr : r < 8) (hc : c < 16) :
    pixel (columnLoop col y on k b) r c =
      if y ≤ (r : Int) ∧ (r : Int) < y + k ∧ (c : Int) = col then on else pixel b r c := by
  induction k generalizing y b with
  | zero => rw [columnLoop, if_neg (by omega)]
  | succ k ih =>
    rw [columnLoop, ih, pixel_setbit _ _ _ _ hr hc, ← ite_or]
    exact if_congr (by omega) rfl rfl

/-- The loop over k columns and, within it, over h rows sets the pixels of the rectangle in the grid (R105). -/
theorem pixel_rectLoop (x y : Int) (h : Nat) (on : Bool) (k : Nat) (b : PixelRegister) {r c : Nat} (hr : r < 8)
    (hc : c < 16) :
    pixel (rectLoop x y h on k b) r c =
      if y ≤ (r : Int) ∧ (r : Int) < y + h ∧ x ≤ (c : Int) ∧ (c : Int) < x + k then on else pixel b r c := by
  induction k generalizing x b with
  | zero => rw [rectLoop, if_neg (by omega)]
  | succ k ih =>
    rw [rectLoop, ih, pixel_columnLoop _ _ _ _ _ hr hc, ← ite_or]
    exact if_congr (by omega) rfl rfl

/-- Settles O32: pixel by pixel; a width or height of 0 or less is a loop of no turns and an empty rectangle. -/
theorem drawRectIsItsLoop : Obligations.DrawRectIsItsLoop := by
  intro x y w h on b
  refine pixelRegister_ext fun r hr c hc => ?_
  rw [pixel_setWhere _ _ _ hr hc, pixel_rectLoop _ _ _ _ _ _ hr hc]
  exact if_congr (inRect_iff.trans (by omega)) rfl rfl

/-- The loop of R106 lights the pixels of the segment in the grid, along its row or along its column. -/
theorem pixel_lineLoop {r0 c0 r1 c1 : Int} (hline : r0 = r1 ∨ c0 = c1) (b : PixelRegister) {r c : Nat} (hr : r < 8)
    (hc : c < 16) :
    pixel (lineLoop r0 c0 r1 c1 b) r c =
      if min r0 r1 ≤ (r : Int) ∧ (r : Int) ≤ max r0 r1 ∧ min c0 c1 ≤ (c : Int) ∧ (c : Int) ≤ max c0 c1 then true
      else pixel b r c := by
  unfold lineLoop
  split
  · rw [pixel_rectLoop _ _ _ _ _ _ hr hc]
    exact if_congr (by omega) rfl rfl
  · rw [pixel_columnLoop _ _ _ _ _ hr hc]
    exact if_congr (by omega) rfl rfl

/-- Settles O34: pixel by pixel. -/
theorem drawLineIsItsLoop : Obligations.DrawLineIsItsLoop := by
  intro r0 c0 r1 c1 b hline
  refine pixelRegister_ext fun r hr c hc => ?_
  rw [pixel_setWhere _ _ _ hr hc, pixel_lineLoop hline b hr hc]
  exact if_congr (onSegment_iff hline) rfl rfl

end Sys2Proof.Machine
end

section
/-! PROOF. The operands that show a picture: grids and lines of 8 by 16 (R102 to R104), and the lines of a text (R103). -/

namespace Sys2Proof.Machine

/-! ### Eight rows of sixteen -/

/-- The shape of a picture, written row by row: 8 rows of 16 cells (R102, R103). -/
abbrev HasPictureShape {α : Type} (rows : List (List α)) : Prop := rows.length = 8 ∧ ∀ row ∈ rows, row.length = 16

/-- The check of the number of rows and then of their lengths (R131) asks for the shape. -/
theorem shapeCheck_eq {α : Type} (rows : List (List α)) :
    (if rows.length ≠ 8 then Result.invalidDimensions
      else if rows.any (fun row => row.length ≠ 16) then .invalidDimensions
      else .ok) = if HasPictureShape rows then .ok else .invalidDimensions := by
  by_cases hrows : rows.length = 8
  · have hany : (rows.any fun row => row.length ≠ 16) = true ↔ ¬HasPictureShape rows := by
      simp [HasPictureShape, hrows]
    rw [if_neg (not_not.mpr hrows), if_congr hany rfl rfl, ite_not]
  · rw [if_pos hrows, if_neg fun ⟨hrows', _⟩ => hrows hrows']

theorem checkLoadImage_eq (grid : List (List Bool)) :
    checkLoadImage grid = if HasPictureShape grid then .ok else .invalidDimensions := shapeCheck_eq grid

theorem checkPattern_eq (lines : List Text) :
    checkPattern lines = if HasPictureShape lines then .ok else .invalidDimensions := shapeCheck_eq lines

/-- In a picture's shape every pixel has a cell, and the reading with default values reads it. -/
theorem cell_of_hasPictureShape {α : Type} {rows : List (List α)} (h : HasPictureShape rows) (v : α) {r c : Nat}
    (hr : r < 8) (hc : c < 16) : (rows[r]?.bind fun row => row[c]?) = some ((rows.getD r []).getD c v) := by
  obtain ⟨hrows, hcells⟩ := h
  have hr' : r < rows.length := by omega
  have hc' : c < rows[r].length := by rw [hcells _ (List.getElem_mem hr')]; exact hc
  simp [hr', hc']

/-- A pattern lights a pixel exactly where its character is `*` (R103). -/
theorem patternAt_iff {lines : List Text} (h : HasPictureShape lines) {r c : Nat} (hr : r < 8) (hc : c < 16) :
    patternAt lines r c = true ↔ (lines[r]?.bind fun l => l[c]?) = some '*' := by
  rw [cell_of_hasPictureShape h '.' hr hc, Option.some_inj]
  exact decide_eq_true_iff

/-! ### The grid of a register -/

theorem gridOf_hasPictureShape (b : PixelRegister) : HasPictureShape (gridOf b) := by
  simp [HasPictureShape, gridOf]

/-- The grid that a register shows has the register's pixels for its cells (R104). -/
theorem gridAt_gridOf (b : PixelRegister) {r c : Nat} (hr : r < 8) (hc : c < 16) :
    gridAt (gridOf b) r c = pixel b r c := by
  simp [gridAt, gridOf, hr, hc]

/-- A register is the picture of the grid it shows (R104). -/
theorem columnsOf_gridOf (b : PixelRegister) : columnsOf (gridAt (gridOf b)) = b :=
  pixelRegister_ext fun r hr c hc => by rw [pixel_columnsOf _ hr hc, gridAt_gridOf b hr hc]

/-! ### The lines of a text -/

/-- Characters without a line feed come in front of the first line of what follows (R103). -/
theorem splitLines_append {line rest first : Text} {lines : List Text} (hline : '\n' ∉ line)
    (hrest : splitLines rest = first :: lines) : splitLines (line ++ rest) = (line ++ first) :: lines := by
  induction line with
  | nil => exact hrest
  | cons ch line ih =>
    rw [List.mem_cons, not_or] at hline
    obtain ⟨hch, hline⟩ := hline
    rw [List.cons_append, splitLines, if_neg (Ne.symm hch), ih hline]
    rfl

/-- Lines without a line feed, joined by line feeds, are split into these lines (R103). -/
theorem splitLines_intercalate {lines : List Text} (hne : lines ≠ []) (hlines : ∀ line ∈ lines, '\n' ∉ line) :
    splitLines (['\n'].intercalate lines) = lines := by
  induction lines with
  | nil => exact absurd rfl hne
  | cons line rest ih =>
    rw [List.forall_mem_cons] at hlines
    obtain ⟨hline, hrest⟩ := hlines
    cases rest with
    | nil => simpa using splitLines_append hline (rest := []) rfl
    | cons next rest =>
      have hnext : splitLines ('\n' :: ['\n'].intercalate (next :: rest)) = [] :: next :: rest := by
        rw [splitLines, if_pos rfl, ih (by simp) hrest]
      simpa using splitLines_append hline hnext

end Sys2Proof.Machine
end

section
/-! PROOF. The host requests of the pixel register on a ready block (R97 to R107): the whole next state of each. -/

namespace Sys2Proof.Machine

/-! ### The session -/

/-- Settles O26: the check of the two pins, and the record of a new session. -/
theorem initBeginsASession : Obligations.InitBeginsASession := by
  intro s clk din hf hm
  rw [exec_init_admitted hf hm, checkInit]
  refine ⟨fun heq => ?rejected, fun hne => ?accepted⟩
  case rejected => rw [if_pos heq]; rfl
  case accepted => rw [if_neg hne]; exact ⟨_, rfl, rfl⟩

/-! ### Pixels, rectangles and segments -/

theorem checkSetPixel_outside {row col : Int} (h : row < 0 ∨ row > 7 ∨ col < 0 ∨ col > 15) :
    checkSetPixel row col = .outOfRange :=
  if_neg (by rw [inGrid, decide_eq_true_iff]; omega)

theorem checkSetPixel_inside {row col : Int} (h : 0 ≤ row ∧ row ≤ 7 ∧ 0 ≤ col ∧ col ≤ 15) :
    checkSetPixel row col = .ok :=
  if_pos (by rw [inGrid, decide_eq_true_iff]; omega)

/-- Settles O27: the check of the coordinate, and `setbit` pixel by pixel. -/
theorem setPixelSetsOnePixel : Obligations.SetPixelSetsOnePixel := by
  intro s row col on hready
  rw [exec_setPixel_ready hready]
  refine ⟨fun hout => ?rejected, fun hin => ?accepted⟩
  case rejected => rw [checkSetPixel_outside hout]; rfl
  case accepted =>
    rw [checkSetPixel_inside hin]
    exact ⟨setbit row col on s.buf, rfl, fun r hr c hc => pixel_setbit _ _ _ _ hr hc⟩

/-- Settles O31: the region of the rectangle, pixel by pixel. -/
theorem drawRectFillsTheRectangle : Obligations.DrawRectFillsTheRectangle := by
  refine fun s x y w h on hready => ⟨_, exec_drawRect_ready hready x y w h on, fun r hr c hc => ?_⟩
  rw [pixel_setWhere _ _ _ hr hc]
  exact if_congr inRect_iff rfl rfl

/-- Settles O33: the check for a diagonal, and the region of the segment, pixel by pixel. -/
theorem drawLineLightsTheSegment : Obligations.DrawLineLightsTheSegment := by
  intro s r0 c0 r1 c1 hready
  rw [exec_drawLine_ready hready, checkDrawLine]
  refine ⟨fun hdiagonal => ?rejected, fun hline => ?accepted⟩
  case rejected => rw [if_pos hdiagonal]; rfl
  case accepted =>
    rw [if_neg (by omega)]
    refine ⟨_, rfl, fun r hr c hc => ?_⟩
    rw [pixel_setWhere _ _ _ hr hc]
    exact if_congr (onSegment_iff hline) rfl rfl

/-! ### Rendering -/

/-- A picture rendered and answered: the register, its events, both lines at 1, the answer, and nothing else (R38,
R100). -/
theorem renderPicture_respond (s : State) (b : PixelRegister) (r : Response) :
    (State.render { s with buf := b }).respond r =
      { s with
        buf := b, trace := s.trace ++ writeFrameEvents Config.timing b.toList, clk := some true, din := some true,
        results := s.results ++ [r] } :=
  emit_respond (writeFrameEvents_levels _ _) { s with buf := b } r

/-- RENDER and CLEAR render a picture: the register itself, and the cleared one (R100, R101). -/
theorem exec_render_or_clear {s : State} (hr : Ready s) {i : Instr} {b : PixelRegister}
    (hi : (i = .render ∧ b = s.buf) ∨ (i = .clear ∧ b = Vector.replicate 16 0)) :
    exec i s = .next ((State.render { s with buf := b }).respond ⟨.ok, none⟩) := by
  obtain ⟨rfl, rfl⟩ | ⟨rfl, rfl⟩ := hi
  · exact exec_render_ready hr
  · exact exec_clear_ready hr

/-- Settles O28: a write of the register's 16 bytes. -/
theorem renderAndClearSendTheBuffer : Obligations.RenderAndClearSendTheBuffer := by
  intro s hr i b hi
  exact ⟨_, (exec_render_or_clear hr hi).trans (congrArg _ (renderPicture_respond s b _)), rfl,
    writeFrameEvents_length _ (by simp), says_writeFrameEvents _ _⟩

/-- LOAD_IMAGE of a grid of a picture's shape renders the grid's picture (R102). -/
theorem exec_loadImage_accepted {s : State} (hr : Ready s) {grid : List (List Bool)} (h : HasPictureShape grid) :
    exec (.loadImage grid) s =
      .next ((State.render { s with buf := columnsOf (gridAt grid) }).respond ⟨.ok, none⟩) := by
  rw [exec_loadImage_ready hr, checkLoadImage_eq, if_pos h, finish]

/-- Settles O29: the check of the shape, and the picture of the grid's cells. -/
theorem loadImageReplacesAndRenders : Obligations.LoadImageReplacesAndRenders := by
  refine fun s grid hready => ⟨fun hshape => ?rejected, fun hshape => ?accepted⟩
  case rejected =>
    rw [exec_loadImage_ready hready, checkLoadImage_eq, if_neg hshape]
    rfl
  case accepted =>
    refine ⟨_, (exec_loadImage_accepted hready hshape).trans (congrArg _ (renderPicture_respond s _ _)),
      fun r hr c hc => ?_⟩
    rw [cell_of_hasPictureShape hshape false hr hc, pixel_columnsOf _ hr hc, gridAt]

/-- Settles O36: the grid has a picture's shape, and its picture is the register. -/
theorem loadedGridOfABufferIsTheBuffer : Obligations.LoadedGridOfABufferIsTheBuffer :=
  fun _ b hr => ⟨_, exec_loadImage_accepted hr (gridOf_hasPictureShape b), columnsOf_gridOf b⟩

/-! ### Patterns and the register's bytes -/

/-- Settles O30: the text is split into its lines again, and these are checked and read. -/
theorem parsePatternReadsItsLines : Obligations.ParsePatternReadsItsLines := by
  intro s lines hready hne hlines
  rw [exec_parsePattern_ready hready, splitLines_intercalate hne hlines, checkPattern_eq]
  refine ⟨fun hshape => ?rejected, fun hshape => ?accepted⟩
  case rejected => rw [if_neg hshape]; rfl
  case accepted =>
    rw [if_pos hshape]
    refine ⟨_, rfl, fun r hr c hc => ?_⟩
    rw [pixel_columnsOf _ hr hc]
    exact patternAt_iff hshape hr hc

/-- Settles O35: the answer's value is the register's bytes. -/
theorem readBufferAnswersTheBytes : Obligations.ReadBufferAnswersTheBytes := fun _ hr => exec_readBuffer_ready hr

end Sys2Proof.Machine
end

section
/-! PROOF. The transpose engine (R109 to R114): how many bytes TRANSPOSE needs, what it answers on a ready block, and
each of its lists of bytes bit by bit. -/

namespace Sys2Proof.Machine

/-! ### The check -/

/-- R110's number of bytes, as the number that R109 writes for a count of 0 or more. -/
theorem transposeNeed_cast (n : Nat) :
    (transposeNeed n : Int) = if (n : Int) = 0 then 0 else 7 * (n : Int) + ((n : Int) - 1) / 8 + 1 := by
  unfold transposeNeed
  split_ifs <;> omega

/-- The check keeps every element that is read inside the pattern (R110). -/
theorem index_lt_transposeNeed {n r c : Nat} (hr : r < 8) (hc : c < n) : r * n + c / 8 < transposeNeed n := by
  have hrow : r * n ≤ 7 * n := Nat.mul_le_mul_right n (by omega)
  rw [transposeNeed, if_neg (by omega)]
  omega

/-- Eight rows of n bytes are enough (R110). -/
theorem transposeNeed_le (n : Nat) : transposeNeed n ≤ 8 * n := by
  unfold transposeNeed
  split_ifs <;> omega

/-- A negative count is rejected, whatever the pattern (R109, R131). -/
theorem exec_transpose_negative {s : State} (hr : Ready s) (pattern : List Int) {n : Int} (hn : n < 0) :
    exec (.transpose pattern n) s = .next (s.respond ⟨.outOfRange, some []⟩) := by
  rw [exec_transpose_ready hr, checkTranspose, if_pos hn]
  rfl

/-- A pattern with too few bytes is rejected (R109, R110). -/
theorem exec_transpose_short {s : State} (hr : Ready s) {pattern : List Int} {n : Nat}
    (hlen : pattern.length < transposeNeed n) :
    exec (.transpose pattern n) s = .next (s.respond ⟨.invalidDimensions, some []⟩) := by
  rw [exec_transpose_ready hr, checkTranspose, if_neg (by omega), Int.toNat_natCast, if_pos hlen]
  rfl

/-- A pattern with enough bytes is answered by its n columns (R109). -/
theorem exec_transpose_accepted {s : State} (hr : Ready s) {pattern : List Int} {n : Nat}
    (hlen : transposeNeed n ≤ pattern.length) :
    exec (.transpose pattern n) s = .next (s.respond ⟨.ok, some (transposeColumns pattern n)⟩) := by
  rw [exec_transpose_ready hr, checkTranspose, if_neg (by omega), Int.toNat_natCast, if_neg (by omega)]
  rfl

/-! ### Lists of bytes, bit by bit -/

/-- Two lists of bytes of one length with the same bits are equal. -/
theorem bytes_ext {xs ys : List Byte} (hlen : xs.length = ys.length)
    (h : ∀ i < ys.length, ∀ b < 8, (xs.getD i 0).getLsbD b = (ys.getD i 0).getLsbD b) : xs = ys := by
  refine List.ext_getElem hlen fun i hx hy => ?_
  rw [← List.getD_eq_getElem xs 0 hx, ← List.getD_eq_getElem ys 0 hy]
  exact BitVec.eq_of_getLsbD_eq (h i hy)

/-- Bit b of byte i in a list of bytes that are each made of their bits. -/
theorem getLsbD_map_range (f : Nat → Nat → Bool) {m i b : Nat} (hi : i < m) (hb : b < 8) :
    (((List.range m).map fun i => byteOfRows (f i)).getD i 0).getLsbD b = f i b := by
  rw [List.getD_eq_getElem _ _ (by simpa using hi), List.getElem_map, List.getElem_range, byteOfRows_getLsbD _ hb]

@[simp] theorem transposeColumns_length (pattern : List Int) (n : Nat) : (transposeColumns pattern n).length = n := by
  simp [transposeColumns]

@[simp] theorem untranspose_length (out : List Byte) (n : Nat) : (untranspose out n).length = 8 * n := by
  simp [untranspose]

@[simp] theorem rowMajorOf_length (grid : List (List Bool)) : (rowMajorOf grid).length = 128 := by simp [rowMajorOf]

/-- Bit r of column c is bit `7 - c mod 8` of element `r*n + c/8` (R109). -/
theorem transposeColumns_getLsbD (pattern : List Int) {n c r : Nat} (hc : c < n) (hr : r < 8) :
    ((transposeColumns pattern n).getD c 0).getLsbD r =
      (low8 (pattern.getD (r * n + c / 8) 0)).getLsbD (7 - c % 8) :=
  getLsbD_map_range _ hc hr

/-- The same for a pattern of bytes, which are their own low 8 bits (R80). -/
theorem transposeColumns_bytes_getLsbD (p : List Byte) {n c r : Nat} (hc : c < n) (hr : r < 8) :
    ((transposeColumns (p.map fun v => (v.toNat : Int)) n).getD c 0).getLsbD r =
      (p.getD (r * n + c / 8) 0).getLsbD (7 - c % 8) := by
  have helement (i : Nat) : (p.map fun v => (v.toNat : Int)).getD i 0 = ((p.getD i 0).toNat : Int) :=
    List.getD_map p 0 fun v : Byte => (v.toNat : Int)
  rw [transposeColumns_getLsbD _ hc hr, helement, low8_toNat]

/-- Bit b of byte i of the pattern is bit `i/n` of column `8*(i mod n) + (7-b)`, and 0 where there is no such column
(R112). -/
theorem untranspose_getLsbD (out : List Byte) {n i b : Nat} (hi : i < 8 * n) (hb : b < 8) :
    ((untranspose out n).getD i 0).getLsbD b =
      (decide (8 * (i % n) + (7 - b) < n) && (out.getD (8 * (i % n) + (7 - b)) 0).getLsbD (i / n)) :=
  getLsbD_map_range _ hi hb

/-- Bit b of byte i of a grid's pattern is the cell in row `i/16` and column `8*(i mod 16) + (7-b)` (R114). -/
theorem rowMajorOf_getLsbD (grid : List (List Bool)) {i b : Nat} (hi : i < 128) (hb : b < 8) :
    ((rowMajorOf grid).getD i 0).getLsbD b =
      (decide (i % 16 < 2) && gridAt grid (i / 16) (8 * (i % 16) + (7 - b))) :=
  getLsbD_map_range _ hi hb

/-! ### Where a bit comes from -/

/-- Element `r*n + c/8` lies in row r of the n bytes of a row, as byte `c/8` of it (R109). -/
theorem row_of_index {n r c : Nat} (hc : c < n) : (r * n + c / 8) / n = r ∧ (r * n + c / 8) % n = c / 8 := by
  have hbyte : c / 8 < n := by omega
  rw [Nat.mul_comm, Nat.mul_add_div (by omega), Nat.mul_add_mod, Nat.div_eq_of_lt hbyte, Nat.mod_eq_of_lt hbyte]
  exact ⟨Nat.add_zero r, rfl⟩

/-- The columns of a pattern made from columns are these columns (R112). -/
theorem transposeColumns_untranspose {out : List Byte} {n : Nat} (hlen : out.length = n) :
    transposeColumns ((untranspose out n).map fun v => (v.toNat : Int)) n = out := by
  refine bytes_ext (by simp [hlen]) fun c hc r hr => ?_
  rw [hlen] at hc
  have hindex : r * n + c / 8 < 8 * n := (index_lt_transposeNeed hr hc).trans_le (transposeNeed_le n)
  obtain ⟨hrow, hbyte⟩ := row_of_index (r := r) hc
  have hcolumn : 8 * (c / 8) + (7 - (7 - c % 8)) = c := by omega
  rw [transposeColumns_bytes_getLsbD _ hc hr, untranspose_getLsbD out hindex (by omega), hrow, hbyte, hcolumn,
    decide_eq_true hc, Bool.true_and]

/-- A pattern of n bytes a row whose unused bits are 0 is made again from its columns (R112). -/
theorem untranspose_transposeColumns {p : List Byte} {n : Nat} (hlen : p.length = 8 * n)
    (hunused : ∀ i < 8 * n, ∀ b < 8, n ≤ 8 * (i % n) + (7 - b) → (p.getD i 0).getLsbD b = false) :
    untranspose (transposeColumns (p.map fun v => (v.toNat : Int)) n) n = p := by
  refine bytes_ext (by simp [hlen]) fun i hi b hb => ?_
  rw [hlen] at hi
  rw [untranspose_getLsbD _ hi hb]
  by_cases hcolumn : 8 * (i % n) + (7 - b) < n
  · have hrow : i / n < 8 := Nat.div_lt_of_lt_mul (by rwa [Nat.mul_comm])
    have hbyte : (8 * (i % n) + (7 - b)) / 8 = i % n := by omega
    have hbit : 7 - (8 * (i % n) + (7 - b)) % 8 = b := by omega
    rw [decide_eq_true hcolumn, Bool.true_and, transposeColumns_bytes_getLsbD p hcolumn hrow, hbyte, hbit,
      Nat.mul_comm, Nat.div_add_mod]
  · rw [decide_eq_false hcolumn, Bool.false_and, hunused i hi b hb (by omega)]

/-- The columns of a grid's row-major pattern are the bytes of the grid's picture (R114). -/
theorem transposeColumns_rowMajorOf (grid : List (List Bool)) :
    transposeColumns ((rowMajorOf grid).map fun v => (v.toNat : Int)) 16 = bytesOf (columnsOf (gridAt grid)) := by
  refine bytes_ext (by simp) fun c hc r hr => ?_
  rw [bytesOf_length] at hc
  obtain ⟨hrow, hbyte⟩ := row_of_index (r := r) hc
  have hcolumn : 8 * (c / 8) + (7 - (7 - c % 8)) = c := by omega
  rw [transposeColumns_bytes_getLsbD _ hc hr, rowMajorOf_getLsbD grid (by omega) (by omega), hrow, hbyte, hcolumn,
    decide_eq_true (by omega), Bool.true_and, bytesOf_getD]
  exact (pixel_columnsOf _ hr hc).symm

/-! ### The request -/

/-- An answer leaves a ready block ready (R30). -/
theorem ready_respond {s : State} (hr : Ready s) (r : Response) : Ready (s.respond r) := hr

/-- Settles O37: the three answers of the check, and each bit of a column from the element that holds it. -/
theorem transposeMovesEachBit : Obligations.TransposeMovesEachBit := by
  intro s pattern n hready
  refine ⟨exec_transpose_negative hready pattern, fun hn hlen => ?short, fun hn hlen => ?accepted⟩
  all_goals
    obtain ⟨n, rfl⟩ := Int.eq_ofNat_of_zero_le hn
    rw [← transposeNeed_cast] at hlen
  case short => exact exec_transpose_short hready (Int.ofNat_lt.mp hlen)
  case accepted =>
    replace hlen := Int.ofNat_le.mp hlen
    refine ⟨_, exec_transpose_accepted hready hlen, by simp, fun r hr c hc => ?_⟩
    rw [transposeColumns_length] at hc ⊢
    have hindex : r * n + c / 8 < pattern.length := (index_lt_transposeNeed hr hc).trans_le hlen
    refine ⟨_, low8 _, _, List.getElem?_eq_getElem hindex, toNat_ofInt_byte _,
      List.getElem?_eq_getElem (by simpa using hc), ?_⟩
    rw [← List.getD_eq_getElem _ 0, ← List.getD_eq_getElem _ 0 hindex, transposeColumns_getLsbD pattern hc hr]

/-- Settles O38: both compositions of the two functions, and patterns of 8n bytes, which TRANSPOSE accepts. -/
theorem transposeRoundTrip : Obligations.TransposeRoundTrip := by
  intro n _
  refine ⟨fun out hlen => ⟨transposeColumns_untranspose hlen, fun s hready => ?columns⟩, fun p hlen hunused =>
    ⟨_, rfl, transposeColumns_length _ n, untranspose_transposeColumns hlen hunused, fun s hready => ?pattern⟩⟩
  case columns =>
    rw [exec_transpose_accepted hready (by simpa using transposeNeed_le n), transposeColumns_untranspose hlen]
    rfl
  case pattern => exact exec_transpose_accepted hready (by simpa [hlen] using transposeNeed_le n)

/-- Settles O39: 57 bytes are needed, and 8 are answered. -/
theorem transposeIsNotItsOwnInverse : Obligations.TransposeIsNotItsOwnInverse := by
  intro s pattern hready hlen
  have hneed : transposeNeed 8 = 57 := rfl
  have hshort : ((transposeColumns pattern 8).map fun v => (v.toNat : Int)).length < transposeNeed 8 := by
    simp [hneed]
  exact ⟨_, _, exec_transpose_accepted (n := 8) hready (hneed.trans_le hlen), rfl, transposeColumns_length _ _,
    exec_transpose_short (n := 8) (ready_respond hready _) hshort⟩

/-- Settles O40: both requests are accepted, and the columns are the picture's bytes. -/
theorem transposeAgreesWithLoadImage : Obligations.TransposeAgreesWithLoadImage := by
  intro s grid hready hrows hcells
  refine ⟨_, _, exec_loadImage_accepted hready ⟨hrows, hcells⟩,
    exec_transpose_accepted (n := 16) hready (by simpa using transposeNeed_le 16), ?_⟩
  rw [transposeColumns_rowMajorOf]
  rfl

end Sys2Proof.Machine
end

section
/-! PROOF. The scroll bitmap (R115): its columns as the glyphs with their separators, and its length (R116). -/

namespace Sys2Proof.Machine

@[simp] theorem textColumns_cons_cons (font : Font) (fold : Bool) (ch next : Char) (rest : Text) :
    textColumns font fold (ch :: next :: rest) =
      glyphOf font fold ch ++ 0 :: textColumns font fold (next :: rest) := rfl

/-- Between two glyphs stands one zero column, and none after the last (R115). -/
theorem textColumns_eq (font : Font) (fold : Bool) (text : Text) :
    textColumns font fold text = ((text.map (glyphOf font fold)).intersperse [0]).flatten := by
  induction text with
  | nil => rfl
  | cons ch rest ih =>
    cases rest with
    | nil => simp [textColumns]
    | cons next rest => simp [ih]

/-- As many columns as the glyphs have, and one between two of them (R116). -/
theorem textColumns_length (font : Font) (fold : Bool) (text : Text) :
    (textColumns font fold text).length =
      (text.map fun ch => (glyphOf font fold ch).length).sum + (text.length - 1) := by
  induction text with
  | nil => rfl
  | cons ch rest ih =>
    cases rest with
    | nil => simp [textColumns]
    | cons next rest =>
      rw [textColumns_cons_cons, List.length_append, List.length_cons, ih]
      simp only [List.map_cons, List.sum_cons, List.length_cons]
      omega

/-- The columns of the text between two pads of 16 (R116). -/
theorem scrollBitmap_length (font : Font) (fold : Bool) (text : Text) :
    (scrollBitmap font fold text).length = 32 + (textColumns font fold text).length := by
  simp only [scrollBitmap, scrollPad, List.length_append, List.length_replicate]
  omega

/-- Upper case letters are looked up as they are, so `H` and `I` have their 5 columns, folding on or off (R9, R115). -/
theorem glyphOf_length_HI (fold : Bool) :
    (glyphOf Config.font fold 'H').length = 5 ∧ (glyphOf Config.font fold 'I').length = 5 := by
  have hH : foldChar fold 'H' = 'H' := foldChar_of_not_folded (by simp)
  have hI : foldChar fold 'I' = 'I' := foldChar_of_not_folded (by simp)
  rw [glyphOf_of_font_some (hH ▸ Config.font_H), glyphOf_of_font_some (hI ▸ Config.font_I)]
  simp

/-- Settles O42: the glyphs are those of `glyphOf`, and the builder's recursion puts one zero column between two. -/
theorem scrollBitmapIsPaddedText : Obligations.ScrollBitmapIsPaddedText := by
  intro s text glyph hready hglyph
  obtain rfl : glyph = glyphOf Config.font Config.foldCase := funext hglyph
  rw [exec_buildScrollBitmap_ready hready, scrollBitmap, textColumns_eq]
  rfl

/-- Settles O43: two pads and the columns of the text; for "HI" 32 + 5 + 5 + 1. -/
theorem scrollBitmapLength : Obligations.ScrollBitmapLength := by
  have hlength (font : Font) (fold : Bool) (text : Text) : (scrollBitmap font fold text).length =
      32 + (text.map fun ch => (glyphOf font fold ch).length).sum + (text.length - 1) := by
    rw [scrollBitmap_length, textColumns_length, Nat.add_assoc]
  refine ⟨hlength, fun fold => ?_⟩
  obtain ⟨hH, hI⟩ := glyphOf_length_HI fold
  simp [hlength, hH, hI]

end Sys2Proof.Machine
end

section
/-! PROOF. SCROLL_TEXT on a ready block and the tick of a running scroll (R117 to R119): the next state of each. -/

namespace Sys2Proof.Machine

/-! ### Acceptance -/

/-- A negative speed or another direction is answered at once, and does nothing else (R117, R131). -/
theorem exec_scrollText_rejected {s : State} (hr : Ready s) (text : Text) {speed dir : Int}
    (h : speed < 0 ∨ (dir ≠ 0 ∧ dir ≠ 1)) :
    exec (.scrollText text speed dir) s = .next (s.respond ⟨.outOfRange, none⟩) := by
  have hcheck : checkScrollText speed dir = .outOfRange := by
    by_cases hspeed : speed < 0
    · exact if_pos hspeed
    · exact (if_neg hspeed).trans (if_pos (h.resolve_left hspeed))
  rw [exec_scrollText_ready hr, hcheck]

/-- A speed of 0 or more with a direction of R81 is accepted (R117). -/
theorem exec_scrollText_accepted {s : State} (hr : Ready s) (text : Text) {speed dir : Int} {st : ScrollStep}
    (hspeed : 0 ≤ speed) (hdir : scrollStepOf dir = some st) :
    exec (.scrollText text speed dir) s =
      .next (s.acceptScroll (scrollBitmap Config.font Config.foldCase text) speed.toNat st) := by
  have hcheck : checkScrollText speed dir = .ok := by
    unfold checkScrollText
    rw [if_neg (by omega), if_neg]
    rintro ⟨h0, h1⟩
    simp [scrollStepOf, h0, h1] at hdir
  rw [exec_scrollText_ready hr, hcheck, hdir]

/-- Settles O44: the rejection, and the registers of an accepted scroll by its direction. -/
theorem scrollTextIsAccepted : Obligations.ScrollTextIsAccepted := by
  refine fun s text speed dir hready => ⟨exec_scrollText_rejected hready text, fun hspeed hdir => ⟨_, rfl, ?_⟩⟩
  obtain rfl | rfl := hdir
  · exact exec_scrollText_accepted (st := .forward) hready text hspeed rfl
  · exact exec_scrollText_accepted (st := .backward) hready text hspeed rfl

/-! ### The tick -/

/-- While a scroll runs, the tick shows one window and moves on (R118). -/
theorem exec_scrollTick_scrolling {s : State} (hf : s.fault = none) (hm : s.mode = .scrolling) :
    exec .scrollTick s = .next s.scrollFrame.scrollAdvance := by
  simp [exec, execScrollTick, hf, hm]

/-- Without a scroll the tick is not enabled (R118). -/
theorem exec_scrollTick_idle {s : State} (hf : s.fault = none) (hm : s.mode = .idle) :
    exec .scrollTick s = .fault .tickNotEnabled := by
  simp [exec, execScrollTick, hf, hm]

/-- The window is shown and rendered, and the delay kept; both lines are at 1 then (R38, R118). -/
theorem scrollFrame_eq (s : State) :
    s.scrollFrame = { s with
      buf := scrollWindow s.scrBitmap s.scrOff
      trace := s.trace ++ renderEvents (scrollWindow s.scrBitmap s.scrOff) ++ [.millis s.scrSpeed]
      clk := some true, din := some true } := by
  simp only [State.scrollFrame, State.render, State.emit, renderEvents_levels, lastLevel]

/-- At the final offset the scroll ends and is answered (R119). -/
theorem scrollAdvance_at_last {s : State} (h : s.scrOff = s.scrLast) :
    s.scrollAdvance = { s with mode := .idle, results := s.results ++ [⟨.ok, none⟩] } :=
  if_pos h

/-- Before the final offset the offset moves on (R118). -/
theorem scrollAdvance_before_last {s : State} (h : s.scrOff ≠ s.scrLast) :
    s.scrollAdvance = { s with scrOff := s.scrOff + stepInt s.scrStep } :=
  if_neg h

/-- Byte i of the window is the bitmap's column at the offset plus i (R118). -/
theorem scrollWindow_getElem? (bitmap : List Byte) (off : Int) {i : Nat} (hi : i < 16) :
    (scrollWindow bitmap off).toList[i]? = some (bitmapColumn bitmap (off + (i : Int))) := by
  simp [scrollWindow, hi]

/-- Settles O45: the frame of a tick, and after it the end of the scroll or the next offset. -/
theorem scrollTickShowsOneWindow : Obligations.ScrollTickShowsOneWindow := by
  refine fun s hf => ⟨exec_scrollTick_idle hf, fun hm =>
    ⟨scrollWindow s.scrBitmap s.scrOff, fun i hi => ?window, fun hlast => ?ends, fun hlast => ?movesOn⟩⟩
  case window => rw [scrollWindow_getElem? _ _ hi, bitmapColumn, List.getD_eq_getElem?_getD]
  case ends =>
    rw [exec_scrollTick_scrolling hf hm, scrollAdvance_at_last (by simpa using hlast), scrollFrame_eq]
    rfl
  case movesOn =>
    rw [exec_scrollTick_scrolling hf hm, scrollAdvance_before_last (by simpa using hlast), scrollFrame_eq]
    rfl

end Sys2Proof.Machine
end

section
/-! PROOF. A scroll that no request interrupts, to its end (R120): one tick a step, as many as there are offsets, by
induction on the ticks left. -/

namespace Sys2Proof.Machine

/-! ### The run -/

/-- The final state of a scroll after n ticks with their events: the last window in the register, `Idle`, and the answer
(R119, R120). -/
def State.scrollEnd (s : State) (n : Nat) : State :=
  { s with
    mode := .idle
    buf := scrollWindow s.scrBitmap s.scrLast
    scrOff := s.scrLast
    clk := some true
    din := some true
    trace := s.trace ++ scrollEvents s.scrBitmap s.scrSpeed s.scrStep s.scrOff n
    results := s.results ++ [⟨.ok, none⟩] }

/-- A scroll runs, the host has no further turn, and the final offset is n steps away. -/
structure ScrollsFor (s : State) (n : Nat) : Prop where
  fault : s.fault = none
  host : s.host = []
  mode : s.mode = .scrolling
  last : s.scrLast = s.scrOff + n * stepInt s.scrStep

/-- With no further turn of the host, the step of a running scroll is its tick (R18). -/
theorem ScrollsFor.step {s : State} {n : Nat} (h : ScrollsFor s n) : step s = .next s.scrollFrame.scrollAdvance := by
  rw [step_of_host_nil h.fault h.host, quietTurn_of_scrolling h.mode, exec_scrollTick_scrolling h.fault h.mode]

/-- A step that answers is the first of a run. -/
theorem run_of_step {M : Host.Core} {s t : M.State} (h : M.step s = .next t) (k : Nat) :
    M.run (k + 1) s = M.run k t := by
  simp only [Host.Core.run, h]

/-- While a scroll runs, a run of one step or more begins with its tick. -/
theorem ScrollsFor.run_succ {s : State} {n : Nat} (h : ScrollsFor s n) (k : Nat) :
    Host.Core.run core (k + 1) s = Host.Core.run core k s.scrollFrame.scrollAdvance :=
  run_of_step (M := core) h.step k

/-- At the final offset a tick ends the scroll (R119). -/
theorem ScrollsFor.tick_zero {s : State} (h : ScrollsFor s 0) : s.scrollFrame.scrollAdvance = s.scrollEnd 1 := by
  have hlast : s.scrOff = s.scrLast := by simpa using h.last.symm
  rw [scrollAdvance_at_last (by simpa using hlast), scrollFrame_eq]
  simp [State.scrollEnd, scrollEvents, hlast, renderEvents]

/-- One step short of so many, the offset is not the final one, so a tick leaves the scroll running (R118). -/
theorem ScrollsFor.off_ne_last {s : State} {n : Nat} (h : ScrollsFor s (n + 1)) : s.scrOff ≠ s.scrLast := by
  have hlast := h.last
  cases hst : s.scrStep <;> simp only [hst, stepInt] at hlast <;> omega

/-- A tick before the final offset leaves one step less to it (R118). -/
theorem ScrollsFor.tick {s : State} {n : Nat} (h : ScrollsFor s (n + 1)) :
    ScrollsFor s.scrollFrame.scrollAdvance n where
  fault := by simpa using h.fault
  host := by simpa using h.host
  mode := by simpa [h.off_ne_last] using h.mode
  last := by
    have hlast := h.last
    push_cast at hlast
    simp only [State.scrollAdvance_scrLast, State.scrollAdvance_scrOff, State.scrollAdvance_scrStep,
      State.scrollFrame_scrLast, State.scrollFrame_scrOff, State.scrollFrame_scrStep, if_neg h.off_ne_last]
    linarith

/-- The tick's events come before those of the rest of the scroll (R120). -/
theorem ScrollsFor.scrollEnd_tick {s : State} {n : Nat} (h : ScrollsFor s (n + 1)) (k : Nat) :
    s.scrollFrame.scrollAdvance.scrollEnd k = s.scrollEnd (k + 1) := by
  rw [scrollAdvance_before_last (by simpa using h.off_ne_last), scrollFrame_eq]
  simp [State.scrollEnd, scrollEvents, renderEvents]

/-- Before the tick at the final offset the scroll still runs (R120). -/
theorem ScrollsFor.run_scrolling {s : State} {n : Nat} (h : ScrollsFor s n) {k : Nat} (hk : k ≤ n) :
    ∃ t, Host.Core.run core k s = .next t ∧ t.mode = .scrolling := by
  induction k generalizing s n with
  | zero => exact ⟨s, rfl, h.mode⟩
  | succ k ih =>
    obtain ⟨n, rfl⟩ : ∃ m, n = m + 1 := ⟨n - 1, by omega⟩
    obtain ⟨t, hrun, hm⟩ := ih h.tick (by omega)
    exact ⟨t, (h.run_succ k).trans hrun, hm⟩

/-- One tick for each offset, the final one included, ends the scroll (R120). -/
theorem ScrollsFor.run_end {s : State} {n : Nat} (h : ScrollsFor s n) :
    Host.Core.run core (n + 1) s = .next (s.scrollEnd (n + 1)) := by
  induction n generalizing s with
  | zero => exact (h.run_succ 0).trans (congrArg _ h.tick_zero)
  | succ n ih => exact (h.run_succ (n + 1)).trans ((ih h.tick).trans (congrArg _ (h.scrollEnd_tick (n + 1))))

/-! ### The last window -/

/-- At the final offset the window lies in the pad after the text, or wholly left of the bitmap: sixteen zero columns
(R120). -/
theorem scrollWindow_finalOffset (font : Font) (fold : Bool) (text : Text) (st : ScrollStep) :
    scrollWindow (scrollBitmap font fold text) (finalOffset st (scrollBitmap font fold text).length) =
      clearedBuffer := by
  have hcolumns (i : Nat) (hi : i < 16) : bitmapColumn (scrollBitmap font fold text)
      (finalOffset st (scrollBitmap font fold text).length + (i : Int)) = 0 := by
    cases st with
    | forward =>
      have hoff : finalOffset .forward (scrollBitmap font fold text).length + (i : Int) =
          (((scrollPad ++ textColumns font fold text).length + i : Nat) : Int) := by
        rw [finalOffset, scrollBitmap_length, List.length_append, scrollPad, List.length_replicate]
        omega
      rw [hoff, bitmapColumn, if_pos (by omega), Int.toNat_natCast, scrollBitmap,
        List.getD_append_right _ _ _ _ (by omega), Nat.add_sub_cancel_left, scrollPad, List.getD_replicate _ hi]
    | backward => exact if_neg (by simp only [finalOffset]; omega)
  exact Vector.ext fun i hi => by simpa [scrollWindow, clearedBuffer] using hcolumns i hi

/-! ### The whole scroll -/

/-- The number of steps from the first offset to the final one: `L - 16` to the left, L to the right (R117). -/
def offsetSteps (st : ScrollStep) (length : Nat) : Nat :=
  match st with
  | .forward => length - 16
  | .backward => length

theorem finalOffset_eq (st : ScrollStep) {length : Nat} (h : 16 ≤ length) :
    finalOffset st length = firstOffset st length + offsetSteps st length * stepInt st := by
  cases st with
  | forward => simp only [finalOffset, firstOffset, offsetSteps, stepInt]; omega
  | backward => simp only [finalOffset, firstOffset, offsetSteps, stepInt]; omega

/-- An accepted scroll of a host with no further turn has all its offsets before it (R117). -/
theorem scrollsFor_acceptScroll {s : State} (hr : Ready s) (hh : s.host = []) {bm : List Byte} (hbm : 16 ≤ bm.length)
    (v : Nat) (st : ScrollStep) : ScrollsFor (s.acceptScroll bm v st) (offsetSteps st bm.length) where
  fault := hr.1
  host := hh
  mode := rfl
  last := finalOffset_eq st hbm

/-- A scroll over a bitmap of R115, accepted with no further turn of the host: it runs for fewer steps than it has
offsets, and after one step for each it has ended with a zero pixel register (R120). -/
theorem run_acceptScroll {s : State} (hr : Ready s) (hh : s.host = []) {text : Text} {bm : List Byte}
    (hbm : bm = scrollBitmap Config.font Config.foldCase text) (v : Nat) (st : ScrollStep) :
    (∀ k < offsetSteps st bm.length + 1, ∃ t,
      Host.Core.run core k (s.acceptScroll bm v st) = .next t ∧ t.mode = .scrolling) ∧
    Host.Core.run core (offsetSteps st bm.length + 1) (s.acceptScroll bm v st) = .next { s.acceptScroll bm v st with
      mode := .idle, buf := clearedBuffer, scrOff := finalOffset st bm.length, clk := some true, din := some true
      trace := s.trace ++ scrollEvents bm v st (firstOffset st bm.length) (offsetSteps st bm.length + 1)
      results := s.results ++ [⟨.ok, none⟩] } := by
  have hlen : 32 ≤ bm.length := hbm ▸ scrollBitmap_length_ge _ _ _
  have hscroll := scrollsFor_acceptScroll hr hh (le_trans (by omega) hlen) v st
  have hwindow : scrollWindow bm (finalOffset st bm.length) = clearedBuffer :=
    hbm ▸ scrollWindow_finalOffset Config.font Config.foldCase text st
  refine ⟨fun k hk => hscroll.run_scrolling (Nat.le_of_lt_succ hk), hscroll.run_end.trans (congrArg _ ?_)⟩
  simp [State.scrollEnd, hwindow]

/-- Settles O46: the run of an accepted scroll, with the number of its offsets in each direction. -/
theorem scrollRunsToItsEnd : Obligations.ScrollRunsToItsEnd := by
  intro s text speed dir hready hhost hspeed hdir
  obtain ⟨bm, hbm⟩ : ∃ bm, bm = scrollBitmap Config.font Config.foldCase text := ⟨_, rfl⟩
  have hlen : 32 ≤ bm.length := hbm ▸ scrollBitmap_length_ge _ _ _
  have haccepted {st : ScrollStep} (hst : scrollStepOf dir = some st) :
      exec (.scrollText text speed dir) s = .next (s.acceptScroll bm speed.toNat st) :=
    hbm ▸ exec_scrollText_accepted hready text hspeed hst
  have hrun := run_acceptScroll hready hhost hbm speed.toNat
  obtain rfl | rfl := hdir
  · have hticks : offsetSteps .forward bm.length + 1 = bm.length - 15 := by simp only [offsetSteps]; omega
    exact ⟨_, bm, _, .forward, _, _, haccepted rfl, hbm, .inl ⟨rfl, hticks, rfl, rfl, rfl⟩, hrun .forward⟩
  · exact ⟨_, bm, _, .backward, _, _, haccepted rfl, hbm, .inr ⟨rfl, rfl, rfl, rfl, rfl⟩, hrun .backward⟩

end Sys2Proof.Machine
end

section
/-! PROOF. Admission of a host request (R125 to R129): each of its checks, every request as its body past them, and what
the body keeps of the fault register. -/

namespace Sys2Proof.Machine

variable {i : Instr} {r : Request} {s t : State} {run : State → Out}

/-! ### The checks -/

/-- The two modes (R27). -/
theorem State.mode_idle_or_scrolling (s : State) : s.mode = .idle ∨ s.mode = .scrolling := by
  cases s.mode <;> simp

/-- With a fault recorded no request has a step (R125, R130). -/
theorem admission_of_fault (hf : s.fault ≠ none) : admission r s run = .fault .quiescent :=
  if_pos (Option.isSome_iff_ne_none.mpr hf)

/-- An unassigned code is recorded first, whatever the block is doing (R125, R129). -/
theorem admission_of_unassigned (hf : s.fault = none) (ha : assigned r.code = false) :
    admission r s run = .next (s.raise .illegalRequest r) := by
  rw [admission, if_neg (by simp [hf]), if_pos (by simp [ha])]

/-- A request is not let through while a scroll runs (R125, R127). -/
theorem admission_of_scrolling (hf : s.fault = none) (ha : assigned r.code = true) (hm : s.mode = .scrolling) :
    admission r s run = .next (s.raise .busyViolation r) := by
  rw [admission, if_neg (by simp [hf]), if_neg (by simp [ha]), if_pos hm]

/-- Before the first INIT only an INIT is let through (R125, R128). -/
theorem admission_of_uninitialized (hf : s.fault = none) (ha : assigned r.code = true) (hm : s.mode = .idle)
    (hi : s.initialized = false) (hc : r.code ≠ 0x01) : admission r s run = .next (s.raise .notInitialized r) := by
  rw [admission, if_neg (by simp [hf]), if_neg (by simp [ha]), if_neg (by simp [hm]), if_pos (by simpa [hi] using hc)]

/-! ### The requests -/

/-- Every request is its body past admission, and no body touches the fault register (R125, R126). -/
theorem exec_eq_admission (hr : encodeRequest i = some r) :
    ∃ run : State → Out, (∀ s, exec i s = admission r s run) ∧ ∀ s t, run s = .next t → t.fault = s.fault := by
  cases i with
  | init | writeFrame | turnOn | turnOff | brightness | setPixel | render | clear | loadImage | drawRect | drawLine =>
    obtain rfl := Option.some.inj hr
    refine ⟨_, fun _ => rfl, fun s t hrun => ?_⟩
    exact keeps_of_finish State.fault (fun _ => by simp) (fun _ => rfl) hrun
  | parsePattern | readBuffer | transpose | buildScrollBitmap =>
    obtain rfl := Option.some.inj hr
    refine ⟨_, fun _ => rfl, fun s t hrun => ?_⟩
    exact keeps_of_finishWith State.fault (fun _ => by simp) (fun _ => rfl) hrun
  | scrollText =>
    obtain rfl := Option.some.inj hr
    refine ⟨_, fun _ => rfl, fun s t hrun => ?_⟩
    split at hrun <;> (obtain rfl := Host.Outcome.next.inj hrun; rfl)
  | illegalRequest code operands =>
    cases hcode : assigned code with
    | false =>
      rw [encodeRequest_illegalRequest hcode] at hr
      obtain rfl := Option.some.inj hr
      exact ⟨_, fun _ => dif_pos hcode, fun _ _ hrun => by cases hrun⟩
    | true => simp [encodeRequest, hcode] at hr
  | cmdAutoIncrement | cmdAddress0 | cmdDisplayOnDefault | cmdTurnOn | cmdDisplayOff | cmdBrightness | wireDataByte
  | sendBit | sendByte | startSignal | endSignal | sendCommand | scrollTick => cases hr

/-- A request that passes all the checks answers a next state without a fault (R125). -/
theorem exec_of_allowed (hr : encodeRequest i = some r) (hf : s.fault = none) (hm : s.mode = .idle)
    (ha : assigned r.code = true) (hallowed : s.initialized = true ∨ r.code = 0x01) :
    ∃ t, exec i s = .next t ∧ t.fault = none := by
  obtain ⟨run, hexec, hkeeps⟩ := exec_eq_admission hr
  obtain ⟨t, ht⟩ := exec_answers_of_request (i := i) hf (by simp [hr])
  have hrun : run s = .next t := by rw [← ht, hexec, admission_of_allowed hf hm ha hallowed]
  exact ⟨t, ht, (hkeeps s t hrun).trans hf⟩

/-- Settles O10, check by check. -/
theorem admissionDecidesInOrder : Obligations.AdmissionDecidesInOrder := by
  intro i r s hr _
  obtain ⟨run, hexec, _⟩ := exec_eq_admission hr
  split_ifs with hfault hcode hscroll hinit
  · exact (hexec s).trans (admission_of_fault hfault)
  all_goals rw [not_not] at hfault
  · exact (hexec s).trans (admission_of_unassigned hfault hcode)
  all_goals rw [Bool.not_eq_false] at hcode
  · exact (hexec s).trans (admission_of_scrolling hfault hcode hscroll)
  all_goals have hidle := s.mode_idle_or_scrolling.resolve_right hscroll
  · obtain ⟨hbefore, hother⟩ := hinit
    exact (hexec s).trans (admission_of_uninitialized hfault hcode hidle hbefore hother)
  · exact exec_of_allowed hr hfault hidle hcode (by simpa [Classical.or_iff_not_imp_left] using hinit)

end Sys2Proof.Machine
end

section
/-! PROOF. A recorded fault stops the block, and its recording changes nothing else (R126, R130); what an answer other
than `Ok` comes with (R124). -/

namespace Sys2Proof.Machine

variable {i : Instr} {s t : State}

/-- With a fault recorded the block does nothing of itself (R130). -/
theorem perform_of_fault {act : State → State} (hf : s.fault ≠ none) : perform s act = .fault .quiescent :=
  if_pos (Option.isSome_iff_ne_none.mpr hf)

/-- With a fault recorded no instruction has a step: no request, no tick (R130), no primitive and no wire command. -/
theorem exec_of_fault (i : Instr) (hf : s.fault ≠ none) : exec i s = .fault .quiescent := by
  have hsome : s.fault.isSome = true := Option.isSome_iff_ne_none.mpr hf
  cases i with
  | init | writeFrame | turnOn | turnOff | brightness | setPixel | render | clear | loadImage | parsePattern | drawRect
  | drawLine | readBuffer | transpose | buildScrollBitmap => exact admission_of_fault hf
  | scrollText =>
    dsimp only [exec, execScrollText]
    exact admission_of_fault hf
  | illegalRequest code operands =>
    dsimp only [exec, execIllegalRequest]
    by_cases hcode : assigned code = false
    · rw [dif_pos hcode]
      exact admission_of_fault hf
    · rw [dif_neg hcode]
      exact if_pos hsome
  | cmdAutoIncrement | cmdAddress0 | cmdDisplayOnDefault | cmdTurnOn | cmdDisplayOff | cmdBrightness | wireDataByte
  | sendBit | sendByte | startSignal | endSignal | sendCommand =>
    dsimp only [exec]
    exact perform_of_fault hf
  | scrollTick =>
    dsimp only [exec, execScrollTick]
    exact if_pos hsome

/-- An effect records a fault and does nothing else, or keeps the fault register (R126). -/
theorem Effect.raises_or_keeps_fault (h : Effect i s t) : (∃ k r, t = s.raise k r) ∨ t.fault = s.fault := by
  cases h with
  | raised k r => exact .inl ⟨k, r, rfl⟩
  | answered | wrote | sent | began | accepted | drove => exact .inr rfl
  | ticked => exact .inr (by simp)

/-- Settles O11: every instruction and the step with a fault recorded, and the effects that record one. -/
theorem faultsAreStickyAndPrecise : Obligations.FaultsAreStickyAndPrecise := by
  refine ⟨fun i s hf => ⟨exec_of_fault i hf, ?step, ?noGoodEnd⟩, fun i s t h hne => ?precise⟩
  case step =>
    obtain ⟨record, hrecord⟩ := Option.ne_none_iff_exists'.mp hf
    exact step_of_fault hrecord
  case noGoodEnd => exact fun ⟨_, _, hnone⟩ => hf hnone
  case precise =>
    obtain ⟨_, heffect⟩ := exec_cases h
    obtain ⟨k, r, rfl⟩ | hkeeps := heffect.raises_or_keeps_fault
    · rfl
    · exact absurd hkeeps hne

/-- An effect gives no answer, or one; and an answer other than `Ok` is all that it does (R124). -/
theorem Effect.results_cases (h : Effect i s t) :
    t.results = s.results ∨
      ∃ resp, t.results = s.results ++ [resp] ∧ (resp.result ≠ .ok → t = s.respond resp) := by
  cases h with
  | raised | accepted | drove => exact .inl rfl
  | answered resp => exact .inr ⟨resp, rfl, fun _ => rfl⟩
  | wrote b resp _ _ hok => exact .inr ⟨resp, rfl, fun hne => absurd hok hne⟩
  | sent | began => exact .inr ⟨_, rfl, fun hne => absurd rfl hne⟩
  | ticked =>
    by_cases hlast : s.scrOff = s.scrLast
    · exact .inr ⟨⟨.ok, none⟩, by simp [hlast], fun hne => absurd rfl hne⟩
    · exact .inl (by simp [hlast])

/-- Settles O12, from the answer of each effect. -/
theorem rejectedRequestsChangeNothing : Obligations.RejectedRequestsChangeNothing := by
  intro i s t resp h hanswer hne
  obtain ⟨_, heffect⟩ := exec_cases h
  obtain hnone | ⟨resp', hresp', hrejected⟩ := heffect.results_cases
  · simp [hnone] at hanswer
  · obtain rfl : resp' = resp := by simpa [hresp'] using hanswer
    exact hrejected hne

end Sys2Proof.Machine
end

section
/-! PROOF. The answer of each request on a ready block: the codes of its check (R123, R131), and whether a value comes
with it (R30). -/

namespace Sys2Proof.Machine

/-! ### The codes of the checks -/

theorem checkInit_codes (clk din : PinId) : checkInit clk din = .ok ∨ checkInit clk din = .outOfRange :=
  (ite_eq_or_eq _ _ _).symm

theorem checkWriteFrame_codes (data : List Int) :
    checkWriteFrame data = .ok ∨ checkWriteFrame data = .invalidDimensions :=
  (ite_eq_or_eq _ _ _).symm

theorem checkBrightness_codes (level : Int) : checkBrightness level = .ok ∨ checkBrightness level = .outOfRange :=
  (ite_eq_or_eq _ _ _).symm

theorem checkSetPixel_codes (row col : Int) : checkSetPixel row col = .ok ∨ checkSetPixel row col = .outOfRange :=
  ite_eq_or_eq _ _ _

theorem checkLoadImage_codes (grid : List (List Bool)) :
    checkLoadImage grid = .ok ∨ checkLoadImage grid = .invalidDimensions := by
  rw [checkLoadImage_eq]
  exact ite_eq_or_eq _ _ _

theorem checkPattern_codes (lines : List Text) :
    checkPattern lines = .ok ∨ checkPattern lines = .invalidDimensions := by
  rw [checkPattern_eq]
  exact ite_eq_or_eq _ _ _

theorem checkDrawLine_codes (r0 c0 r1 c1 : Int) :
    checkDrawLine r0 c0 r1 c1 = .ok ∨ checkDrawLine r0 c0 r1 c1 = .unsupported :=
  (ite_eq_or_eq _ _ _).symm

theorem checkTranspose_codes (pattern : List Int) (n : Int) :
    checkTranspose pattern n = .ok ∨ checkTranspose pattern n = .outOfRange ∨
      checkTranspose pattern n = .invalidDimensions := by
  unfold checkTranspose
  split_ifs <;> simp

/-! ### The answers -/

section
variable {i : Instr} {s : State} {c : Result} {effect : State → State}

/-- A request whose effect gives no answer of its own answers once, with the code of its check and no value (R123). -/
theorem answers_of_finish (hexec : exec i s = finish c effect s) (heffect : (effect s).results = s.results) :
    ∃ t, exec i s = .next t ∧ t.results = s.results ++ [⟨c, none⟩] := by
  obtain ⟨t, ht⟩ := finish_answers c effect s
  refine ⟨t, hexec.trans ht, ?_⟩
  obtain ⟨rfl, rfl⟩ | ⟨_, rfl⟩ := finish_cases ht
  · rw [State.respond_results, heffect]
  · rfl

/-- The same for a request that returns a value, which is empty where the code is not `Ok` (R123). -/
theorem answers_of_finishWith {v : List Byte} (hexec : exec i s = finishWith c v effect s)
    (heffect : (effect s).results = s.results) :
    ∃ t, exec i s = .next t ∧ ∃ w, t.results = s.results ++ [⟨c, some w⟩] ∧ (c = .ok ∨ w = []) := by
  obtain ⟨t, ht⟩ := finishWith_answers c v effect s
  refine ⟨t, hexec.trans ht, ?_⟩
  obtain ⟨rfl, rfl⟩ | ⟨_, rfl⟩ := finishWith_cases ht
  · exact ⟨v, by rw [State.respond_results, heffect], .inl rfl⟩
  · exact ⟨[], rfl, .inr rfl⟩

end

/-- SCROLL_TEXT is accepted and gives no answer yet, or is rejected and no scroll runs (R117, R119). -/
theorem exec_scrollText_answers {s : State} (hr : Ready s) (text : Text) (speed dir : Int) :
    ∃ t, exec (.scrollText text speed dir) s = .next t ∧
      ((t.mode = .scrolling ∧ t.results = s.results) ∨
        (t.mode = .idle ∧ t.results = s.results ++ [⟨.outOfRange, none⟩])) := by
  obtain ⟨_, hidle, _⟩ := id hr
  rw [exec_scrollText_ready hr]
  split
  · exact ⟨_, rfl, .inl ⟨rfl, rfl⟩⟩
  · exact ⟨_, rfl, .inr ⟨hidle, rfl⟩⟩

/-- Settles O13, request by request: its end, and the codes of its check. -/
theorem eachRequestAnswersAsTabled : Obligations.EachRequestAnswersAsTabled := by
  intro i s hi hwf hr
  obtain ⟨hf, hm, _⟩ := id hr
  cases i with
  | init clk din =>
    obtain ⟨t, ht, hres⟩ := answers_of_finish (exec_init_admitted hf hm clk din) (by simp)
    exact ⟨t, ht, _, hres, checkInit_codes clk din⟩
  | brightness level =>
    obtain ⟨t, ht, hres⟩ := answers_of_finish (exec_brightness_ready hr level) (by simp)
    exact ⟨t, ht, _, hres, checkBrightness_codes level⟩
  | setPixel row col on =>
    obtain ⟨t, ht, hres⟩ := answers_of_finish (exec_setPixel_ready hr row col on) (by simp)
    exact ⟨t, ht, _, hres, checkSetPixel_codes row col⟩
  | writeFrame data =>
    obtain ⟨t, ht, hres⟩ := answers_of_finish (exec_writeFrame_ready hr data) (by simp)
    exact ⟨t, ht, _, hres, checkWriteFrame_codes data⟩
  | loadImage grid =>
    obtain ⟨t, ht, hres⟩ := answers_of_finish (exec_loadImage_ready hr grid) (by simp)
    exact ⟨t, ht, _, hres, checkLoadImage_codes grid⟩
  | drawLine r0 c0 r1 c1 =>
    obtain ⟨t, ht, hres⟩ := answers_of_finish (exec_drawLine_ready hr r0 c0 r1 c1) (by simp)
    exact ⟨t, ht, _, hres, checkDrawLine_codes r0 c0 r1 c1⟩
  | turnOn => exact answers_of_finish (exec_turnOn_ready hr) (by simp)
  | turnOff => exact answers_of_finish (exec_turnOff_ready hr) (by simp)
  | render => exact answers_of_finish (exec_render_ready hr) (by simp)
  | clear => exact answers_of_finish (exec_clear_ready hr) (by simp)
  | drawRect x y w h on => exact answers_of_finish (exec_drawRect_ready hr x y w h on) (by simp)
  | parsePattern text =>
    obtain ⟨t, ht, w, hres, hvalue⟩ := answers_of_finishWith (exec_parsePattern_ready hr text) (by simp)
    exact ⟨t, ht, _, w, hres, or_and_left.mpr ⟨checkPattern_codes _, hvalue⟩⟩
  | transpose pattern n =>
    obtain ⟨t, ht, w, hres, hvalue⟩ := answers_of_finishWith (exec_transpose_ready hr pattern n) (by simp)
    exact ⟨t, ht, _, w, hres, or_and_left.mpr ⟨checkTranspose_codes pattern n, hvalue⟩⟩
  | readBuffer =>
    obtain ⟨t, ht, w, hres, _⟩ := answers_of_finishWith (exec_readBuffer_ready hr) (by simp)
    exact ⟨t, ht, w, hres⟩
  | buildScrollBitmap text =>
    obtain ⟨t, ht, w, hres, _⟩ := answers_of_finishWith (exec_buildScrollBitmap_ready hr text) (by simp)
    exact ⟨t, ht, w, hres⟩
  | scrollText text speed dir => exact exec_scrollText_answers hr text speed dir
  | illegalRequest code operands =>
    have hcode : assigned code = false := by simpa [Instr.wellFormed] using hwf
    simp [hostRequest, hcode, Request.unassigned] at hi
  | cmdAutoIncrement | cmdAddress0 | cmdDisplayOnDefault | cmdTurnOn | cmdDisplayOff | cmdBrightness | wireDataByte
  | sendBit | sendByte | startSignal | endSignal | sendCommand | scrollTick => cases hi

end Sys2Proof.Machine
end

section
/-! PROOF. A host that keeps its duties meets no fault (R137): the step of its turn is the sequencer's, or runs a request
that passes every check of admission. -/

namespace Sys2Proof.Machine

variable {i : Instr} {s t : State}

/-- No effect touches the host's turns (R84). -/
theorem Effect.host (h : Effect i s t) : t.host = s.host := by
  cases h with
  | raised | answered | wrote | sent | began | accepted | drove => rfl
  | ticked => simp

/-- The sequencer's turn records no fault and takes no turn of the host (R118, R138). -/
theorem quietTurn_keeps (h : quietTurn s = .next t) : t.fault = s.fault ∧ t.host = s.host := by
  cases hm : s.mode with
  | idle =>
    rw [quietTurn_of_idle hm] at h
    obtain rfl := Host.Outcome.next.inj h
    exact ⟨rfl, rfl⟩
  | scrolling =>
    rw [quietTurn_of_scrolling hm] at h
    obtain ⟨_, heffect⟩ := exec_cases h
    exact ⟨heffect.fault_of_no_request rfl, heffect.host⟩

/-- Every request decodes to an instruction that encodes to it (R75, R77). -/
theorem encodeRequest_decodeRequest (r : Request) : encodeRequest (decodeRequest r) = some r := by
  obtain ⟨hwf, _⟩ := decodeRequest_isRequest r
  exact encodeRequest_of_decodeRequest rfl hwf

/-- Once initialised, a block stays so (R24). -/
theorem step_initialized (h : step s = .next t) (hs : s.initialized = true) : t.initialized = true :=
  step_keeps (P := fun s => s.initialized = true) (fun _ _ hi => hi)
    (fun _ heffect => heffect.initialized_of_initialized) h hs

/-- The step of a host that keeps its duties: the sequencer's turn, or with no scroll running a request of R75, after
which the host still keeps them (R137). -/
theorem Dutiful.step_cases (hd : Dutiful s.host) (hf : s.fault = none) :
    step s = quietTurn s ∨
      ∃ r rest, assigned r.code = true ∧ s.mode = .idle ∧ Dutiful rest ∧
        step s = exec (decodeRequest r) { s with host := rest } := by
  cases hh : s.host with
  | nil => exact .inl (step_of_host_nil hf hh)
  | cons turn rest =>
    rw [hh] at hd
    obtain ⟨⟨r, rfl, ha⟩, hrest⟩ := List.forall_mem_cons.mp hd
    obtain hm | hm := s.mode_idle_or_scrolling
    · exact .inr ⟨r, rest, ha, hm, hrest, step_of_host_issueWhenReady_idle hf hh hm⟩
    · exact .inl (step_of_host_issueWhenReady_scrolling hf hh hm)

/-- Settles O14: the sequencer's turn records no fault, and a dutiful host's request passes every check. -/
theorem dutifulHostMeetsNoFault : Obligations.DutifulHostMeetsNoFault := by
  intro s hf hi hd
  obtain hquiet | ⟨r, rest, ha, hm, hrest, hexec⟩ := hd.step_cases hf
  · obtain ⟨t, ht⟩ := step_answers hf
    obtain ⟨hfault, hhost⟩ := quietTurn_keeps (hquiet.symm.trans ht)
    exact ⟨t, ht, hfault.trans hf, step_initialized ht hi, hhost.symm ▸ hd⟩
  · obtain ⟨t, ht, hfault⟩ :=
      exec_of_allowed (s := { s with host := rest }) (encodeRequest_decodeRequest r) hf hm ha (.inl hi)
    have hstep : step s = .next t := hexec.trans ht
    obtain ⟨_, heffect⟩ := exec_cases ht
    have hhost : t.host = rest := heffect.host
    exact ⟨t, hstep, hfault, step_initialized hstep hi, hhost.symm ▸ hrest⟩

end Sys2Proof.Machine
end

section
/-! PROOF. The pins of earlier sessions keep their levels (R98, R152): what a session that goes on, and one that begins,
do to the trace cut into its sessions, and from it the level of each pin. -/

namespace Sys2Proof.Machine

/-! ### The level of a pin in a session -/

theorem sessionPinLevel_append (p : PinId) (m : SessionMark) (es es' : List Event) (l : Option Level) :
    sessionPinLevel p m (es ++ es') l = sessionPinLevel p m es' (sessionPinLevel p m es l) := by
  induction es generalizing l with
  | nil => rfl
  | cons e es ih => cases e <;> exact ih _

/-- A session drives only its own two pins (R12, R98). -/
theorem sessionPinLevel_of_ne {p : PinId} {m : SessionMark} (hclk : p ≠ m.clkPin) (hdin : p ≠ m.dinPin)
    (es : List Event) (l : Option Level) : sessionPinLevel p m es l = l := by
  induction es generalizing l with
  | nil => rfl
  | cons e es ih =>
    cases e with
    | write line v =>
      have hline : linePin m line ≠ p := by
        cases line with
        | clk => exact hclk.symm
        | din => exact hdin.symm
      rw [sessionPinLevel, if_neg hline, ih]
    | micros n => exact ih l
    | millis n => exact ih l

/-! ### The trace cut into its sessions -/

/-- Events at the end of a trace belong to the last session: the parts before it stay (R98). -/
theorem sessionParts_append (trace : List Event) (m : SessionMark) (hm : m.start ≤ trace.length) :
    ∀ before : List SessionMark, (∀ b ∈ before, b.start ≤ trace.length) →
      ∃ parts, ∀ es, sessionParts (trace ++ es) (before ++ [m]) = parts ++ [(m, trace.drop m.start ++ es)]
  | [], _ => ⟨[], fun es => by
      simp only [List.nil_append, sessionParts, List.drop_append_of_le_length hm]⟩
  | [b], _ => ⟨[(b, (trace.take m.start).drop b.start)], fun es => by
      simp only [List.cons_append, List.nil_append, sessionParts, List.take_append_of_le_length hm,
        List.drop_append_of_le_length hm]⟩
  | b :: b' :: rest, hbefore => by
      obtain ⟨parts, hparts⟩ := sessionParts_append trace m hm (b' :: rest) (List.forall_mem_of_forall_mem_cons hbefore)
      have hb' : b'.start ≤ trace.length := hbefore b' (by simp)
      refine ⟨(b, (trace.take b'.start).drop b.start) :: parts, fun es => ?_⟩
      simp only [List.cons_append] at hparts ⊢
      rw [sessionParts, hparts es, List.take_append_of_le_length hb']

/-- A session that begins at the end of a trace has no event, and leaves the parts before it (R98). -/
theorem sessionParts_begin (trace : List Event) (c d : PinId) :
    ∀ marks : List SessionMark, sessionParts trace (marks ++ [⟨c, d, trace.length⟩]) =
      sessionParts trace marks ++ [(⟨c, d, trace.length⟩, [])]
  | [] => by simp [sessionParts]
  | [m] => by simp [sessionParts]
  | m :: m' :: rest => by
      have ih := sessionParts_begin trace c d (m' :: rest)
      simp only [List.cons_append] at ih ⊢
      rw [sessionParts, ih, sessionParts, List.cons_append]

/-! ### The level of a pin after a step -/

/-- A session that goes on changes no pin but its own two, and none at all without an event (R152). -/
theorem Continues.pinLevel {s t : State} {es : List Event} {p : PinId} (h : Continues s es t) (hs : SessionsAgree s)
    (hp : es = [] ∨ (p ≠ s.clkPin ∧ p ≠ s.dinPin)) : t.pinLevel p = s.pinLevel p := by
  obtain ⟨hbefore, hafter⟩ := hs
  unfold State.pinLevel
  rw [h.sessions, h.trace]
  cases hi : s.initialized with
  | false =>
    obtain ⟨hsessions, _⟩ := hbefore hi
    simp only [hsessions, sessionParts]
  | true =>
    obtain ⟨before, start, hsessions, hstart, hmarks⟩ := hafter hi
    obtain ⟨parts, hparts⟩ := sessionParts_append s.trace ⟨s.clkPin, s.dinPin, start⟩ hstart before
      fun m hm => (hmarks m hm).trans hstart
    have hkept : ∀ l, sessionPinLevel p ⟨s.clkPin, s.dinPin, start⟩ es l = l := fun l => by
      obtain rfl | ⟨hclk, hdin⟩ := hp
      · rfl
      · exact sessionPinLevel_of_ne hclk hdin es l
    have hnow := hparts []
    simp only [List.append_nil] at hnow
    rw [hsessions, hparts, hnow, List.foldl_append, List.foldl_append]
    simp only [List.foldl_cons, List.foldl_nil, sessionPinLevel_append, hkept]

/-- A session that begins drives no pin (R97, R152). -/
theorem pinLevel_beginSession (s : State) (c d p : PinId) (r : Response) :
    ((s.beginSession c d).respond r).pinLevel p = s.pinLevel p := by
  simp only [State.pinLevel, State.respond_trace, State.respond_sessions, State.beginSession_trace,
    State.beginSession_sessions, sessionParts_begin, List.foldl_append, List.foldl_cons, List.foldl_nil, sessionPinLevel]

/-- A request or a tick changes the level of no pin but the two of the running session (R152). -/
theorem Effect.pinLevel {i : Instr} {s t : State} {p : PinId} (hi : encodeRequest i = none → i = .scrollTick)
    (h : Effect i s t) (hs : SessionsAgree s) (hclk : p ≠ s.clkPin) (hdin : p ≠ s.dinPin) :
    t.pinLevel p = s.pinLevel p := by
  obtain ⟨es, _, hc⟩ | ⟨c, d, _, rfl⟩ := h.continues_or_begins hi
  · exact hc.pinLevel hs (.inr ⟨hclk, hdin⟩)
  · exact pinLevel_beginSession s c d p _

/-- INIT changes the level of no pin: it begins a session, or it goes on with the running one without an event (R97). -/
theorem exec_init_pinLevel {s t : State} {c d : PinId} (hs : SessionsAgree s) (h : exec (.init c d) s = .next t)
    (p : PinId) : t.pinLevel p = s.pinLevel p := by
  obtain ⟨_, heffect⟩ := exec_cases h
  obtain ⟨es, _, hc⟩ | ⟨c, d, _, rfl⟩ := heffect.continues_or_begins (by simp [encodeRequest])
  · have htrace : t.trace = s.trace := exec_trace (by simp [encodeRequest]) (by simp [MaySend]) h
    exact hc.pinLevel hs (.inl (List.append_right_eq_self.mp (hc.trace.symm.trans htrace)))
  · exact pinLevel_beginSession s c d p _

/-- Settles O60: a step takes the host's turn, which no pin sees, and has one effect; INIT has no event. -/
theorem otherPinsKeepTheirLevels : Obligations.OtherPinsKeepTheirLevels := by
  refine ⟨fun s t p hs h hclk hdin => ?step, fun s t c d p hs h => exec_init_pinLevel hs h p⟩
  case step =>
    obtain ⟨turns, rfl | ⟨i, hi, heffect⟩⟩ := step_effect h
    · rfl
    · exact (heffect.pinLevel hi hs hclk hdin :)

end Sys2Proof.Machine
end

section
/-! PROOF. The figures of the timing table (R153, R154): the three counts are sums over the events, so a frame's follow
from those of its conditions and bytes, and a scroll's from those of its ticks. -/

namespace Sys2Proof.Machine

/-! ### Sums over events -/

@[simp] theorem writesIn_append (es es' : List Event) : writesIn (es ++ es') = writesIn es + writesIn es' := by
  induction es with
  | nil => simp [writesIn]
  | cons e es ih => cases e <;> simp only [List.cons_append, writesIn, ih, Nat.add_right_comm]

@[simp] theorem delaysIn_append (es es' : List Event) : delaysIn (es ++ es') = delaysIn es + delaysIn es' := by
  induction es with
  | nil => simp [delaysIn]
  | cons e es ih => cases e <;> simp only [List.cons_append, delaysIn, ih, Nat.add_right_comm]

@[simp] theorem minimumMicros_append (es es' : List Event) :
    minimumMicros (es ++ es') = minimumMicros es + minimumMicros es' := by
  induction es with
  | nil => simp [minimumMicros]
  | cons e es ih => cases e <;> simp only [List.cons_append, minimumMicros, ih, Nat.add_assoc]

/-- A count that is a sum over the events, and the same for every byte, is that many times the number of bytes. -/
theorem count_flatMap {count : List Event → Nat} (hnil : count [] = 0)
    (happend : ∀ es es', count (es ++ es') = count es + count es') {events : Byte → List Event} {k : Nat}
    (hbyte : ∀ x, count (events x) = k) (xs : List Byte) : count (xs.flatMap events) = k * xs.length := by
  induction xs with
  | nil => exact hnil
  | cons x xs ih => rw [List.flatMap_cons, happend, hbyte, ih, List.length_cons, Nat.mul_add_one, Nat.add_comm]

/-! ### Bytes, frames, writes and ticks -/

theorem writesIn_byteCells (t : Timing) (x : Byte) : writesIn (byteCells t x) = 24 := rfl

theorem delaysIn_byteCells (t : Timing) (x : Byte) : delaysIn (byteCells t x) = 16 := rfl

theorem minimumMicros_bitCell (b : Level) : minimumMicros (bitCell Config.timing b) = 4 := rfl

/-- A byte takes at least 4 microseconds for each of its bits (R153). -/
theorem minimumMicros_byteCells (x : Byte) : minimumMicros (byteCells Config.timing x) = 32 := by
  simp [byteCells, minimumMicros_bitCell]

theorem writesIn_frameEvents (t : Timing) (xs : Frame) : writesIn (frameEvents t xs) = 8 + 24 * xs.length := by
  have hbytes := count_flatMap rfl writesIn_append (writesIn_byteCells t) xs
  rw [frameEvents, writesIn_append, writesIn_append, hbytes]
  simp only [startCondition, endCondition, writesIn]
  omega

theorem delaysIn_frameEvents (t : Timing) (xs : Frame) : delaysIn (frameEvents t xs) = 3 + 16 * xs.length := by
  have hbytes := count_flatMap rfl delaysIn_append (delaysIn_byteCells t) xs
  rw [frameEvents, delaysIn_append, delaysIn_append, hbytes]
  simp only [startCondition, endCondition, delaysIn]
  omega

/-- A frame takes at least 4 microseconds for its two conditions and 32 for each byte (R153). -/
theorem minimumMicros_frameEvents (xs : Frame) :
    minimumMicros (frameEvents Config.timing xs) = 4 + 32 * xs.length := by
  have hbytes := count_flatMap rfl minimumMicros_append minimumMicros_byteCells xs
  rw [frameEvents, minimumMicros_append, minimumMicros_append, hbytes]
  simp only [startCondition, endCondition, minimumMicros, Config.timing]
  omega

/-- A write of 16 bytes takes at least 620 microseconds (R153). -/
theorem minimumMicros_writeFrameEvents {d : List Byte} (hd : d.length = 16) :
    minimumMicros (writeFrameEvents Config.timing d) = 620 := by
  simp [writeFrameEvents_eq, minimumMicros_frameEvents, hd]

theorem writesIn_writeFrameEvents (t : Timing) {d : List Byte} (hd : d.length = 16) :
    writesIn (writeFrameEvents t d) = 480 := by
  simp [writeFrameEvents_eq, writesIn_frameEvents, hd]

theorem delaysIn_writeFrameEvents (t : Timing) {d : List Byte} (hd : d.length = 16) :
    delaysIn (writeFrameEvents t d) = 313 := by
  simp [writeFrameEvents_eq, delaysIn_frameEvents, hd]

/-- The events of a tick take the time of their write and the speed in milliseconds (R118, R153). -/
theorem minimumMicros_tick {d : List Byte} (hd : d.length = 16) (speed : Nat) :
    minimumMicros (writeFrameEvents Config.timing d ++ [Event.millis speed]) = 620 + 1000 * speed := by
  rw [minimumMicros_append, minimumMicros_writeFrameEvents hd]
  rfl

theorem tick_length (t : Timing) {d : List Byte} (hd : d.length = 16) (speed : Nat) :
    (writeFrameEvents t d ++ [Event.millis speed]).length = 794 := by
  rw [List.length_append, writeFrameEvents_length t hd]
  rfl

/-- Settles O25: the primitives by their events, and the frames, the write and the tick by their numbers of bytes. -/
theorem eventCountsAndLeastTimes : Obligations.EventCountsAndLeastTimes := by
  refine ⟨⟨rfl, rfl, rfl, rfl⟩, ⟨rfl, rfl, rfl, rfl⟩, fun b => ⟨rfl, rfl, rfl, minimumMicros_bitCell b⟩,
    fun x => ⟨byteCells_length _ x, writesIn_byteCells _ x, delaysIn_byteCells _ x, minimumMicros_byteCells x⟩,
    fun x => ⟨frameEvents_length _ [x], writesIn_frameEvents _ [x], delaysIn_frameEvents _ [x],
      minimumMicros_frameEvents [x]⟩, fun d hd => ?write⟩
  case write =>
    have haddress : ((0xC0 : Byte) :: d).length = 17 := congrArg (· + 1) hd
    refine ⟨?_, ?_, ?_, ?_, writeFrameEvents_length _ hd, writesIn_writeFrameEvents _ hd,
      delaysIn_writeFrameEvents _ hd, minimumMicros_writeFrameEvents hd, fun speed => ?tick⟩
    · rw [frameEvents_length, haddress]
    · rw [writesIn_frameEvents, haddress]
    · rw [delaysIn_frameEvents, haddress]
    · rw [minimumMicros_frameEvents, haddress]
    case tick =>
      refine ⟨tick_length _ hd speed, ?_, ?_, minimumMicros_tick hd speed⟩
      · rw [writesIn_append, writesIn_writeFrameEvents _ hd]; rfl
      · rw [delaysIn_append, delaysIn_writeFrameEvents _ hd]; rfl

/-- Settles O47, by induction on the ticks: each shows a window of 16 columns. -/
theorem scrollLeastTime : Obligations.ScrollLeastTime := by
  intro bm speed step off n
  induction n generalizing off with
  | zero => exact ⟨(Nat.zero_mul _).symm, rfl⟩
  | succ n ih =>
    obtain ⟨htime, hlength⟩ := ih (off + stepInt step)
    have hwindow := bytesOf_length (scrollWindow bm off)
    rw [scrollEvents]
    refine ⟨?time, ?count⟩
    case time => rw [minimumMicros_append, minimumMicros_tick hwindow, htime]; ring
    case count => rw [List.length_append, tick_length _ hwindow, hlength, Nat.mul_add_one, Nat.add_comm]

end Sys2Proof.Machine
end

section
/-! PROOF. Every render ends with the command frame `0x88` (R148): the requests that render and the tick send one write,
whose last frame that is. -/

namespace Sys2Proof.Machine

/-- The last frame of a write is `0x88`, after the two others (R63). -/
theorem writeFrameEvents_eq_flatMap_append (t : Timing) (d : List Byte) :
    writeFrameEvents t d = ([[byteAutoIncrement], byteAddress0 :: d] ++ [[0x88]]).flatMap (frameEvents t) := rfl

/-- A request that renders, on a ready block. -/
def Renders (i : Instr) : Prop :=
  i = .render ∨ i = .clear ∨ (∃ data, i = .writeFrame data ∧ data.length = 16) ∨
    ∃ grid, i = .loadImage grid ∧ HasPictureShape grid

/-- The requests that render send one write and are answered (R90, R100 to R102). -/
theorem exec_renders_trace {s : State} {i : Instr} (hr : Ready s) (hi : Renders i) :
    ∃ t d, exec i s = .next t ∧ t.trace = s.trace ++ writeFrameEvents Config.timing d := by
  obtain rfl | rfl | ⟨data, rfl, hlen⟩ | ⟨grid, rfl, hshape⟩ := hi
  · exact ⟨_, bytesOf s.buf, exec_render_ready hr, rfl⟩
  · exact ⟨_, bytesOf clearedBuffer, exec_clear_ready hr, rfl⟩
  · exact ⟨_, data.map low8, exec_writeFrame_accepted hr hlen, rfl⟩
  · exact ⟨_, bytesOf (columnsOf (gridAt grid)), exec_loadImage_accepted hr hshape, rfl⟩

/-- Settles O53: a request sends one write, and a tick sends one write and its delay. -/
theorem rendersEndWithDisplayOn : Obligations.RendersEndWithDisplayOn := by
  rintro s i hf (⟨hi, hr⟩ | ⟨rfl, hm⟩)
  · obtain ⟨t, d, hexec, htrace⟩ := exec_renders_trace hr hi
    exact ⟨t, _, [], hexec, by rw [htrace, writeFrameEvents_eq_flatMap_append, List.append_nil], .inl rfl⟩
  · refine ⟨_, [[byteAutoIncrement], byteAddress0 :: bytesOf (scrollWindow s.scrBitmap s.scrOff)], [.millis s.scrSpeed],
      exec_scrollTick_scrolling hf hm, ?_, .inr ⟨_, rfl⟩⟩
    rw [State.scrollAdvance_trace, scrollFrame_eq, renderEvents, writeFrameEvents_eq_flatMap_append]

end Sys2Proof.Machine
end

section
/-! PROOF. What power-on reset leaves (R36, R141): the views show no value before the first INIT, and none of the scroll
registers without a scroll. -/

namespace Sys2Proof.Machine

theorem State.pins_of_uninitialized {s : State} (h : s.initialized = false) : s.pins = none :=
  if_neg (by simp [h])

theorem State.pixelRegister_of_uninitialized {s : State} (h : s.initialized = false) : s.pixelRegister = none :=
  if_neg (by simp [h])

theorem State.scroll_of_idle {s : State} (h : s.mode = .idle) : s.scroll = none := by
  rw [State.scroll, h]

/-- Settles O48: reset is not initialised and runs no scroll, so the views show no value; the rest is its record. -/
theorem powerOnReset : Obligations.PowerOnReset :=
  ⟨rfl, State.pins_of_uninitialized rfl, State.pixelRegister_of_uninitialized rfl, rfl, rfl, rfl,
    State.scroll_of_idle rfl, rfl, rfl⟩

end Sys2Proof.Machine
end
